-- ==== Sys2Proof/Word.lean ====
section
/-! DEFINITION. The words of the unit: thread and register numbers, 64-bit words, bytes, money words and capabilities
as 128 bits beside a tag (R8, R34, R35, R61). -/

namespace Sys2Proof

/-- A 64-bit register or memory word. -/
abbrev Word := BitVec 64

/-- One byte. -/
abbrev Byte := BitVec 8

/-- A 128-bit granule or register value. -/
abbrev Quad := BitVec 128

/-- A thread id: tile in [8:3], thread in [2:0] (R8). -/
abbrev Tid := BitVec 9

/-- A general register number, g0 to g31 (R61). -/
abbrev Reg := BitVec 5

/-- A unit address: ring in [9:6], position in [5:0] (R337). -/
abbrev UnitAddr := BitVec 10

/-- A register value: 128 bits and the tag beside them (R35). -/
structure Cap where
  bits : Quad
  tag : Bool
  deriving DecidableEq, Repr

/-- The null capability: 128 zero bits, tag clear (R35). -/
def Cap.null : Cap := ⟨0, false⟩

end Sys2Proof
end

