-- ==== Sys2Proof/Syntax.lean ====
section
/-! DEFINITION. The commands of the unit: one constructor for each row of spec/opcode_table.json, and the operand types they carry.
An instruction command names the thread that issues it; a write names the master that makes it; a completion, expiry or
arrival names what completed. -/

namespace Sys2Proof

/-- Main or Vault (R268). -/
inductive World where
  | main | vault
  deriving DecidableEq, Repr

/-- User or supervisor (R268). -/
inductive Level where
  | user | supervisor
  deriving DecidableEq, Repr

/-- The master identities of R365; a tile access names its thread. -/
inductive Master where
  | tile (t : Tid) | portdma | etcher | service | host | debug | sudon
  deriving DecidableEq, Repr

/-- The four Sudon links (R333). -/
inductive Link where
  | west | east | crossN | crossS
  deriving DecidableEq, Repr

/-- Who acknowledges a broadcast invalidation (R260). -/
inductive InvTarget where
  | tile (n : Nat) | cluster (n : Nat)
  deriving DecidableEq, Repr

/-- The straps of R420. -/
structure Straps where
  anchor : Bool
  ring : BitVec 4
  bootsrc : BitVec 2
  mirrorEn : Bool
  deriving DecidableEq, Repr

/-- One TCP segment as the MAC delivers it (R303). -/
structure Segment where
  sport : BitVec 16
  dport : BitVec 16
  seqNo : BitVec 32
  ackNo : BitVec 32
  syn : Bool
  ack : Bool
  fin : Bool
  rst : Bool
  window : Nat
  mss : Option Nat
  wscale : Option Nat
  sackOk : Bool
  sacks : List (BitVec 32 × BitVec 32)
  tstamp : Option (BitVec 32 × BitVec 32)
  checksumOk : Bool
  data : List Byte
  deriving DecidableEq, Repr

/-- The Ethernet and IP headers that a segment leaves with (R302): a PCP, the TTL or hop limit, DF in IPv4, the flow label in IPv6, the octets of IP
options. An IPv4 address sits in the low 32 bits. -/
structure SentHeader where
  dst : BitVec 48
  src : BitVec 48
  vlan : Option (BitVec 12)
  pcp : Nat
  v6 : Bool
  ipSrc : Quad
  ipDst : Quad
  dontFragment : Bool
  hops : Nat
  flowLabel : Nat
  options : Nat
  deriving DecidableEq, Repr

/-- What an IP packet carries. -/
inductive Payload where
  | tcp (s : Segment) | other
  deriving DecidableEq, Repr

/-- The IP layer of a frame (R302). An IPv4 address sits in the low 32 bits. -/
structure Packet where
  v6 : Bool
  src : Quad
  dst : Quad
  headerOk : Bool
  fragment : Bool
  routing : Bool
  payload : Payload
  deriving DecidableEq, Repr

/-- An Ethernet frame (R302): `octets` is its length without FCS. -/
structure Frame where
  fcsOk : Bool
  dst : BitVec 48
  src : BitVec 48
  vlan : Option (BitVec 12)
  secondTag : Bool
  lengthField : Bool
  octets : Nat
  packet : Option Packet
  raw : List Byte
  deriving DecidableEq, Repr

/-- What finished training during boot (R421 step 2). -/
inductive Trained where
  | sudon (l : Link) (lanes : Nat) (neighbour : Option UnitAddr) | endpoint
  deriving DecidableEq, Repr

/-- What DDR5 training found on a channel (R22, R455). -/
inductive ChannelResult where
  | usable (bytes : Nat) | failed (reason : Nat)
  deriving DecidableEq, Repr

/-- What one ledger tick brings of a domain's activity (R381): A0 in TIME ticks, A1, and the events of A2 and A3 that no command shows, which are those of
the caches, of the memory controllers and of PCIe, and idle flits (R382, log entry 49). -/
structure Activity where
  domain : Nat
  ticks : Nat
  a1 : Nat
  a2 : Nat
  a3 : Nat
  deriving DecidableEq, Repr

/-- What a ledger tick reads: activity, and sensors in quarter degrees (R381, R390). -/
structure TickInput where
  acts : List Activity
  temps : List (Nat × Int)
  deriving DecidableEq, Repr

/-- The three PMBus readings, or the command that failed (R383). -/
inductive PmbusReading where
  | ok (vin iout pin : BitVec 16) | failed (command : BitVec 8)
  deriving DecidableEq, Repr

/-- An enumeration token (R339): its direction, ring, the sender's position and the position list in ring order. `own` says, at an anchor, that it is
the token which this anchor sent, not that of a second anchor (R342). -/
structure Token where
  own : Bool
  east : Bool
  ring : BitVec 4
  position : BitVec 6
  order : List (BitVec 6)
  deriving DecidableEq, Repr

/-- A granule with its tag and colour. -/
structure Granule where
  data : Quad
  tag : Bool
  colour : BitVec 4
  deriving DecidableEq, Repr

/-- A request to reserve a port or a partition slot at a handover target (R349 step 1). -/
structure Reservation where
  sender : UnitAddr
  partition : Bool
  gen : BitVec 16
  obj : Nat
  tlist : Nat
  tslot : Nat
  tbase : Nat
  size : Nat
  partid : Nat
  bytes : Nat
  deriving DecidableEq, Repr

/-- The target's answer to a reservation: the port or slot reserved, or a reason of R351. -/
inductive ReserveAnswer where
  | reserved (obj : Nat) | refused (reason : Nat)
  deriving DecidableEq, Repr

/-- What a message of a handover is about (R348): the kind and name of its object, and its GEN. -/
structure HandoverName where
  partition : Bool
  object : Nat
  gen : BitVec 16
  deriving DecidableEq, Repr

/-- An answer to a reservation, with what it is about (R348, R349). -/
structure ReserveReply where
  about : HandoverName
  answer : ReserveAnswer
  deriving DecidableEq, Repr

/-- A flit that arrives (R334): its 256 bytes, and the unit that its message is for, none for one of the link itself. -/
structure ArrivingFlit where
  bytes : List Byte
  dest : Option UnitAddr
  deriving DecidableEq, Repr

/-- The TCP control block of R298 with what RFC 9293 keeps beside it (R303). Held ranges are out-of-order data. -/
structure Tcb where
  sndUna : BitVec 32
  sndNxt : BitVec 32
  sndWnd : Nat
  sndWl1 : BitVec 32
  sndWl2 : BitVec 32
  rcvNxt : BitVec 32
  rcvWnd : Nat
  sndScale : Nat
  rcvScale : Nat
  mss : Nat
  cwnd : Nat
  ssthresh : Nat
  dupAcks : Nat
  srtt : Nat
  rttvar : Nat
  rto : Nat
  tsRecent : BitVec 32
  tsOn : Bool
  sackOn : Bool
  rtxCount : Nat
  ackDue : Nat
  held : List (BitVec 32 × List Byte)
  recover : Option (BitVec 32)
  guard : Option (BitVec 32)
  timed : Option (BitVec 32 × Nat)
  deriving DecidableEq, Repr

/-- Port states (R294). -/
inductive PState where
  | free | synRcvd | handshake | open | closing | closed
  deriving DecidableEq, Repr

/-- Notices of a port (R314). -/
inductive Notice where
  | none | closed | reset
  deriving DecidableEq, Repr

/-- What the entry bytes 0x020 to 0x0FF of a port say (R298, R349 step 4): CONF, PSTATE, addresses, LINK, TCB, TLS, the delimiter state with
the received bytes that it stands on, and PCNT. -/
structure PortEntry where
  conf : Word
  confNext : Option Word
  state : PState
  notice : Notice
  closeReq : Bool
  finSent : Bool
  finRcvd : Bool
  finFirst : Bool
  finSeen : Bool
  finData : List Byte
  timeWait : Bool
  laddr : Quad
  raddr : Quad
  lport : BitVec 16
  rport : BitVec 16
  peerMac : BitVec 48
  vlan : Option (BitVec 12)
  mac : Nat
  v6 : Bool
  tcb : Tcb
  tls : Bool
  rxSlot : Option Nat
  txSlot : Option Nat
  rxStopped : Bool
  stream : List Byte
  cipher : List Byte
  hsQueue : List (List Byte)
  skip : Nat
  skipDelim : Bool
  spanDone : Nat
  msgsIn : Nat
  bytesIn : Nat
  msgsOut : Nat
  txDone : Nat
  policy : Nat
  trunc : Nat
  deriving DecidableEq, Repr

/-- A message that moves with its port (R349 step 4): its bytes, its number, and the stream bytes discarded before it and taken in all. -/
structure MovedMessage where
  num : Nat
  lead : Nat
  span : Nat
  hs : Bool
  bytes : List Byte
  deriving DecidableEq, Repr

/-- The state a handover moves (R349 step 4): for a port the entry, SOFF and the messages from the durable cursor; for a partition its granules
by offset ÷ 16. -/
structure Transfer where
  sender : UnitAddr
  partition : Bool
  gen : BitVec 16
  obj : Nat
  entry : Option PortEntry
  soff : BitVec 32
  messages : List MovedMessage
  granules : List (Nat × Granule)
  deriving DecidableEq, Repr

/-- The commands (spec/opcode_table.json). -/
inductive Instr where
  -- Integer register operations (R99, R100)
  | add (t : Tid) (rd rs1 rs2 : Reg)
  | sub (t : Tid) (rd rs1 rs2 : Reg)
  | and (t : Tid) (rd rs1 rs2 : Reg)
  | or (t : Tid) (rd rs1 rs2 : Reg)
  | xor (t : Tid) (rd rs1 rs2 : Reg)
  | andn (t : Tid) (rd rs1 rs2 : Reg)
  | sll (t : Tid) (rd rs1 rs2 : Reg)
  | srl (t : Tid) (rd rs1 rs2 : Reg)
  | sra (t : Tid) (rd rs1 rs2 : Reg)
  | seq (t : Tid) (rd rs1 rs2 : Reg)
  | sne (t : Tid) (rd rs1 rs2 : Reg)
  | slt (t : Tid) (rd rs1 rs2 : Reg)
  | sltu (t : Tid) (rd rs1 rs2 : Reg)
  | sle (t : Tid) (rd rs1 rs2 : Reg)
  | sleu (t : Tid) (rd rs1 rs2 : Reg)
  | min (t : Tid) (rd rs1 rs2 : Reg)
  | max (t : Tid) (rd rs1 rs2 : Reg)
  | mul (t : Tid) (rd rs1 rs2 : Reg)
  | mulh (t : Tid) (rd rs1 rs2 : Reg)
  | mulhu (t : Tid) (rd rs1 rs2 : Reg)
  | div (t : Tid) (rd rs1 rs2 : Reg)
  | divu (t : Tid) (rd rs1 rs2 : Reg)
  | rem (t : Tid) (rd rs1 rs2 : Reg)
  | remu (t : Tid) (rd rs1 rs2 : Reg)
  -- Immediate operations (R101, R102, R109)
  | addi (t : Tid) (rd rs1 : Reg) (imm : BitVec 14)
  | andi (t : Tid) (rd rs1 : Reg) (imm : BitVec 14)
  | ori (t : Tid) (rd rs1 : Reg) (imm : BitVec 14)
  | xori (t : Tid) (rd rs1 : Reg) (imm : BitVec 14)
  | slti (t : Tid) (rd rs1 : Reg) (imm : BitVec 14)
  | sltiu (t : Tid) (rd rs1 : Reg) (imm : BitVec 14)
  | slli (t : Tid) (rd rs1 : Reg) (sh : BitVec 6)
  | srli (t : Tid) (rd rs1 : Reg) (sh : BitVec 6)
  | srai (t : Tid) (rd rs1 : Reg) (sh : BitVec 6)
  | liu (t : Tid) (rd : Reg) (imm : BitVec 20)
  | cpcrel (t : Tid) (rd : Reg) (imm : BitVec 20)
  -- Branches, jumps, calls and returns (R103, R104)
  | bz (t : Tid) (rt : Reg) (off : BitVec 20)
  | bnz (t : Tid) (rt : Reg) (off : BitVec 20)
  | j (t : Tid) (off : BitVec 20)
  | call (t : Tid) (off : BitVec 20)
  | jr (t : Tid) (rs1 : Reg)
  | callr (t : Tid) (rs1 : Reg)
  | ret (t : Tid)
  | rspop (t : Tid) (rd : Reg)
  | rspush (t : Tid) (rs1 : Reg) (lv : Level)
  -- Capability operations (R46, R57, R105 to R109)
  | ccopy (t : Tid) (rd rs1 : Reg)
  | cpoint (t : Tid) (rd rs1 rs2 : Reg)
  | cstep (t : Tid) (rd rs1 rs2 : Reg)
  | cstepi (t : Tid) (rd rs1 : Reg) (imm : BitVec 14)
  | cnarrow (t : Tid) (rd rs1 rs2 : Reg)
  | cnarrowX (t : Tid) (rd rs1 rs2 : Reg)
  | cdrop (t : Tid) (rd rs1 rs2 : Reg)
  | cdropi (t : Tid) (rd rs1 : Reg) (imm : BitVec 14)
  | ctint (t : Tid) (rd rs1 rs2 : Reg)
  | cwrap (t : Tid) (rd rs1 rs2 : Reg)
  | cunwrap (t : Tid) (rd rs1 rs2 : Reg)
  | cfitlen (t : Tid) (rd rs1 : Reg)
  | cfitmask (t : Tid) (rd rs1 : Reg)
  | cpaint (t : Tid) (rs1 rs2 : Reg)
  | cpaintL (t : Tid) (rs1 rs2 : Reg)
  | crdbase (t : Tid) (rd rs1 : Reg)
  | crdlen (t : Tid) (rd rs1 : Reg)
  | crdrt (t : Tid) (rd rs1 : Reg)
  | crdclr (t : Tid) (rd rs1 : Reg)
  | crdseal (t : Tid) (rd rs1 : Reg)
  | crdtag (t : Tid) (rd rs1 : Reg)
  | crdcur (t : Tid) (rd rs1 : Reg)
  -- Loads, stores, prefetch (R110 to R113); 'hit' says whether the data comes at once (R69)
  | lb (t : Tid) (rd rs1 : Reg) (imm : BitVec 14) (hit : Bool)
  | lbu (t : Tid) (rd rs1 : Reg) (imm : BitVec 14) (hit : Bool)
  | lh (t : Tid) (rd rs1 : Reg) (imm : BitVec 14) (hit : Bool)
  | lhu (t : Tid) (rd rs1 : Reg) (imm : BitVec 14) (hit : Bool)
  | lw (t : Tid) (rd rs1 : Reg) (imm : BitVec 14) (hit : Bool)
  | lwu (t : Tid) (rd rs1 : Reg) (imm : BitVec 14) (hit : Bool)
  | ld (t : Tid) (rd rs1 : Reg) (imm : BitVec 14) (hit : Bool)
  | lq (t : Tid) (rd rs1 : Reg) (imm : BitVec 14) (hit : Bool)
  | lc (t : Tid) (rd rs1 : Reg) (imm : BitVec 14) (hit : Bool)
  | pref (t : Tid) (rs1 : Reg) (imm : BitVec 14) (writable : Bool)
  | sb (t : Tid) (rs2 rs1 : Reg) (imm : BitVec 14)
  | sh (t : Tid) (rs2 rs1 : Reg) (imm : BitVec 14)
  | sw (t : Tid) (rs2 rs1 : Reg) (imm : BitVec 14)
  | sd (t : Tid) (rs2 rs1 : Reg) (imm : BitVec 14)
  | sq (t : Tid) (rs2 rs1 : Reg) (imm : BitVec 14)
  | sc (t : Tid) (rs2 rs1 : Reg) (imm : BitVec 14)
  -- Atomics (R114, R175)
  | atomicSwap (t : Tid) (rd rs1 rs2 : Reg) (aq rl : Bool) (size : BitVec 4) (hit : Bool)
  | atomicAdd (t : Tid) (rd rs1 rs2 : Reg) (aq rl : Bool) (size : BitVec 4) (hit : Bool)
  | atomicAnd (t : Tid) (rd rs1 rs2 : Reg) (aq rl : Bool) (size : BitVec 4) (hit : Bool)
  | atomicOr (t : Tid) (rd rs1 rs2 : Reg) (aq rl : Bool) (size : BitVec 4) (hit : Bool)
  | atomicXor (t : Tid) (rd rs1 rs2 : Reg) (aq rl : Bool) (size : BitVec 4) (hit : Bool)
  | atomicMax (t : Tid) (rd rs1 rs2 : Reg) (aq rl : Bool) (size : BitVec 4) (hit : Bool)
  | atomicMin (t : Tid) (rd rs1 rs2 : Reg) (aq rl : Bool) (size : BitVec 4) (hit : Bool)
  | atomicMaxu (t : Tid) (rd rs1 rs2 : Reg) (aq rl : Bool) (size : BitVec 4) (hit : Bool)
  | atomicMinu (t : Tid) (rd rs1 rs2 : Reg) (aq rl : Bool) (size : BitVec 4) (hit : Bool)
  | cas (t : Tid) (rd rs1 rs2 : Reg) (aq rl : Bool) (size : BitVec 4) (hit : Bool)
  -- Fences, system instructions, control registers (R115 to R121)
  | fence (t : Tid) (mask : BitVec 4)
  | sync (t : Tid)
  | syncI (t : Tid)
  | sysc (t : Tid)
  | wcall (t : Tid) (rs1 : Reg)
  | eret (t : Tid)
  | brk (t : Tid)
  | tstart (t : Tid) (rd rs1 rs2 : Reg)
  | tstartAnswer (caller : Tid)
  | texit (t : Tid)
  | invalV (t : Tid) (rs1 : Reg)
  | invalVAcknowledge (t : Tid) (who : InvTarget)
  | crr (t : Tid) (rd : Reg) (cr : BitVec 14)
  | crw (t : Tid) (cr : BitVec 14) (rs1 : Reg)
  -- Money (R134, R138)
  | madd (t : Tid) (rd rs1 rs2 : Reg) (scale : BitVec 6) (round : BitVec 3) (te : Bool)
  | msub (t : Tid) (rd rs1 rs2 : Reg) (scale : BitVec 6) (round : BitVec 3) (te : Bool)
  | mmul (t : Tid) (rd rs1 rs2 : Reg) (scale : BitVec 6) (round : BitVec 3) (te : Bool)
  | mdiv (t : Tid) (rd rs1 rs2 : Reg) (scale : BitVec 6) (round : BitVec 3) (te : Bool)
  | mresc (t : Tid) (rd rs1 rs2 : Reg) (scale : BitVec 6) (round : BitVec 3) (te : Bool)
  | mneg (t : Tid) (rd rs1 : Reg) (te : Bool)
  | mabs (t : Tid) (rd rs1 : Reg) (te : Bool)
  | mceq (t : Tid) (rd rs1 rs2 : Reg) (te : Bool)
  | mclt (t : Tid) (rd rs1 rs2 : Reg) (te : Bool)
  | mcle (t : Tid) (rd rs1 rs2 : Reg) (te : Bool)
  | misv (t : Tid) (rd rs1 : Reg)
  | ma2l (t : Tid) (rd rs1 rs2 : Reg) (n : BitVec 4) (te : Bool)
  | ml2a (t : Tid) (rd rs1 rs2 : Reg) (n : BitVec 4) (te : Bool)
  | mlget (t : Tid) (rd rs1 : Reg) (k : BitVec 4)
  | mlset (t : Tid) (rd rs1 rs2 : Reg) (k : BitVec 4)
  | mcvti (t : Tid) (rd rs1 : Reg)
  | mcvtm (t : Tid) (rd rs1 : Reg) (te : Bool)
  -- Completions: n counts from the thread's oldest entry (R67, R71, R173)
  | longOperationComplete (t : Tid) (n : Nat)
  | loadDataArrival (t : Tid) (n : Nat)
  | storeComplete (t : Tid) (n : Nat)
  | instructionFetchArrival (t : Tid)
  | speculativeAccess (t : Tid) (va : BitVec 54) (fetch : Bool)
  -- Block repeat (R145, R162)
  | bmov (t : Tid) (rd rs1 rs2 : Reg) (tags dir : Bool)
  | bfill (t : Tid) (rd rs1 rs2 : Reg)
  | bscan (t : Tid) (rd rs1 rs2 : Reg)
  | bcmp (t : Tid) (rd rs1 rs2 : Reg)
  | bchk (t : Tid) (rs1 rs2 : Reg) (mask : BitVec 10)
  -- Plates and the commit sequencer (R185, R198)
  | pbegin (t : Tid) (rd : Reg) (off : BitVec 14)
  | pbeginDefer (t : Tid) (rd : Reg) (off : BitVec 14)
  | pcommit (t : Tid) (rd : Reg)
  | pabort (t : Tid) (code : BitVec 8)
  | pstat (t : Tid) (rd : Reg) (sel : BitVec 2)
  | commitRequest (t : Tid)
  | commitPoint (t : Tid)
  | journalWaitExpiry (t : Tid)
  | deferLimitExpiry (t : Tid)
  -- Interrupts (R280, R287, R288); 'during' lists (cycle, vector) raised during the entry (R290)
  | interruptEntry (t : Tid) (during : List (Nat × Nat))
  | vectorRaise (tile vector : Nat)
  | vcfgWrite (m : Master) (tile vector : Nat) (value : Word)
  | pendWrite (m : Master) (tile k : Nat) (value : Word)
  | swsetWrite (m : Master) (tile : Nat) (value : Word)
  -- Line repair (R238)
  | lineRepairComplete (line : Nat)
  -- Port instructions (R313, R316, R321)
  | precv (t : Tid) (rd rs1 : Reg)
  | psend (t : Tid) (rd rs1 rs2 : Reg)
  | pwait (t : Tid) (rd rs1 rs2 : Reg)
  | pwaitTimeout (t : Tid)
  | portClaimExpiry (port : Nat)
  | pctlQuery (t : Tid) (rd rs1 rs2 : Reg)
  | pctlClose (t : Tid) (rd rs1 rs2 : Reg)
  | pctlAbort (t : Tid) (rd rs1 rs2 : Reg)
  | pctlRelease (t : Tid) (rd rs1 rs2 : Reg)
  | pctlSetconf (t : Tid) (rd rs1 rs2 : Reg)
  | pctlKeys (t : Tid) (rd rs1 rs2 : Reg)
  | pctlLpool (t : Tid) (rd rs1 rs2 : Reg)
  -- Network (R302, R303, R310)
  | ethernetFrameReceive (mac : Nat) (f : Frame)
  | messageDelimit (port : Nat)
  | retransmissionTimeout (port : Nat)
  | ackTimerExpiry (port : Nat)
  | timeWaitExpiry (port : Nat)
  | rawtxTailWrite (m : Master) (mac : Nat) (value : Word)
  | rawrxTailWrite (m : Master) (mac : Nat) (value : Word)
  | kcmdInstall (m : Master)
  | kcmdErase (m : Master)
  -- Etcher, journal, recovery, power failure (R223 to R241)
  | format (m : Master)
  | formatComplete
  | openJournal (m : Master)
  | recoveryComplete
  | tailRequest (unit : BitVec 10) (fmtid : Word) (pos : Word)
  | tailAnswer (unit : BitVec 10) (tail : Option (List Byte))
  | tailRequestTimeout
  | etchCtrlWrite (m : Master) (value : Word)
  | mirrorRecord (unit : BitVec 10) (jpos : Word) (record : List Byte)
  | mirrorAck (unit : BitVec 10) (jpos : Word)
  | mirrorTimeout
  | drainedPosition (unit : BitVec 10) (jpos : Word)
  | nvmeSafeGatherTimeout
  | partialBlockTimeout
  | nvmeCommandComplete (status : BitVec 16)
  | proofEpochBoundary
  | pwrfailAssert
  | pwrfailFilterExpiry
  | powerFailDrainComplete
  | pwrfailDeassert
  -- Sudon chain (R334 to R357)
  | flitReceive (link : Link) (flit : ArrivingFlit)
  | linkIdleTimeout (link : Link)
  | linkTrainingLost (link : Link)
  | linkRetrain (link : Link) (goodLanes : Nat) (neighbour : Option (BitVec 10))
  | enumerationToken (token : Token)
  | enumerationTokenTimeout
  | positionList (ring : BitVec 4) (order : List (BitVec 6)) (closed : Bool)
  | addressRequest (link : Link)
  | addressTimeout
  | joinAnswer (link : Link) (ring : BitVec 4) (position : BitVec 6)
  | probe (origin target : BitVec 10) (via : Link)
  | probeAnswer (link : Link) (reached : Bool)
  | probeTimeout (link : Link)
  | fenceCheck
  | take (m : Master)
  | takeWaitExpiry
  | takeoverComplete
  | hoStart (m : Master)
  | handoverReserve (r : Reservation)
  | handoverReserveAnswer (a : ReserveReply)
  | handoverTransfer (x : Transfer)
  | handoverAck (about : HandoverName)
  | handoverTimeout
  | forwardedFrame (port : Nat) (gen : BitVec 16) (mac : Nat) (f : Frame)
  | forwardWindowExpiry (port : Nat)
  | drainedPositionReport
  -- Unit stops and clocks (R23, R377)
  | bridgeFailure (direction : Bool)
  | pllLockLoss (refclkLost : Bool)
  | ethrefLoss
  | ethrefRestore
  -- Stencil gates (R368, R370)
  | gateSync (m : Master) (gate : Nat)
  | gateSyncComplete (gate : Nat)
  | rattrWrite (m : Master) (gate region : Nat) (value : Word)
  -- Bellows (R376 to R394)
  | ledgerTick (a : TickInput)
  | thermalCapLift
  | plan (tpp : List Nat)
  | pmbusCorrection (r : PmbusReading)
  | vrSettleExpiry
  | clockGate (tile : Nat)
  | retentionOffExpiry (tile : Nat)
  | cryptoRetention (engine : Nat)
  | domainWakeComplete (domain : Nat)
  | domctlWrite (m : Master) (domain : Nat) (value : Word)
  | calKeyWrite (m : Master) (value : Word)
  | calCmdWrite (m : Master) (value : Word)
  | calRewriteComplete (verified : Bool)
  -- Recorder (R405 to R409, R414)
  | eventRecordWrite
  | rateWindowStart
  | recCursorWrite (m : Master) (value : Word)
  | recWindowRead (m : Master) (wide : Bool)
  | vdbgAuthWrite (m : Master) (value : Word)
  -- JTAG and debug module (R410 to R413)
  | tapReset
  | extest
  | samplePreload
  | idcode
  | bypass
  | dbgxferNop
  | dbgxferMemRead (addr : Word)
  | dbgxferMemWrite (addr data : Word)
  | dbgxferRegRead (addr : Word)
  | dbgxferRegWrite (addr data : Word)
  | threadStop
  | threadResume
  | threadStep
  | thrRegDataWrite (data : Word)
  -- Reset, boot, host (R417 to R434, R446, R451)
  | coldReset (straps : Straps)
  | warmReset
  | porstNAssert
  | vddAonPowerUp
  | railLoss (aon : Bool)
  | linkTrainingComplete (l : Trained)
  | ddr5TrainingComplete (channels : List ChannelResult)
  | dramInitComplete
  | imageReadComplete (header body : List Byte)
  | mbH2uDoorbell
  | mbU2hDoorbell (m : Master)
  | hostIrqWrite (m : Master) (value : Word)
  | hostRead (bar2 : Bool) (offset : Nat) (width : Nat)
  | hostWrite (bar2 : Bool) (offset : Nat) (data : List Byte)
  | epPerst
  | rootPortLinkUp (port : Nat) (speed width : Nat) (classCode : BitVec 24) (version : BitVec 32)
  | rootPortLinkDown (port : Nat)
  | macLinkUp (mac : Nat)
  | macLinkDown (mac : Nat)
  -- Registers (R10)
  | registerWrite (m : Master) (addr : Nat) (width : Nat) (value : Word)
  deriving DecidableEq, Repr

end Sys2Proof
end

