-- ==== Sys2Proof/Decode.lean ====
section
/-! DEFINITION. The commands that a word spells. spec/opcode_table.json gives no row any bits: a command reaches the unit as a request, an
event or an issue, so no word spells one. -/

namespace Sys2Proof

/-- The command whose bits are w: none, since no row of the table has bits. -/
def decodeTableWord (_nbits _w : Nat) : Option Instr := none

end Sys2Proof
end

