-- ==== Sys2Proof/Config.lean ====
section
/-! DEFINITION. What the spec leaves open, as opaque constants with no value a proof could see: free values, and the
cryptographic functions that the spec names but does not define. -/

namespace Sys2Proof.Config

/-- Free value n of a 64-bit field the spec calls undefined: the delimiter state of R457, the contents of R351. -/
opaque freeWord : Nat → Word

/-- Which of the k + 1 tables that a gate has had since its last completed GATE_SYNC a tile access of granule g uses (R368). -/
opaque staleTable : Nat → Nat → Nat

/-- Whether the quotient n / d, where the spec gives an exact ratio to a register of finite precision and no rounding
(R383, R385), is taken up to the next representable value. -/
opaque ratioUp : Int → Int → Bool

/-- The initial send sequence number that RFC 9293 leaves to the implementation (R303). -/
opaque initialSequence : Nat → BitVec 32

/-- The characterised coefficient of domain d, step column s, index k, in fJ (R397 gives no figure). -/
opaque defaultCoefficient : Nat → Nat → Nat → Nat

/-- The always-on constant and the dynamic scales of the built-in defaults (R397 gives no figure). -/
opaque defaultConstant : Nat → Nat

/-- SHA-384 of a byte string (R426). -/
opaque sha384 : List Byte → BitVec 384

/-- Whether an ECDSA P-384 signature verifies over a SHA-384 value with a public key (R426). -/
opaque signatureVerifies : List Byte → List Byte → BitVec 384 → Bool

/-- AES-GCM opening under key, nonce and additional data, RFC 8446 (R306): the plaintext, or none when the tag fails. -/
opaque aeadOpen : BitVec 256 → Bool → BitVec 96 → List Byte → List Byte → Option (List Byte)

/-- AES-GCM sealing under key, nonce and additional data (R306). -/
opaque aeadSeal : BitVec 256 → Bool → BitVec 96 → List Byte → List Byte → List Byte

/-- Whether a reachable unit accepts this unit as its mirror source at this moment (R345): its own state decides, which is not here. -/
opaque acceptsMirror : UnitAddr → Nat → Bool

/-- The reason codes of event 0x0804, which R358 names without numbers: 0 no address, 1 position over 64, 2 second anchor. -/
opaque anomalyCode : Nat → Byte

/-- The reason codes of event 0x0903, which R398 names without numbers: 0 staging CRC, 1 erase count, 2 no key sequence, 3 verification. -/
opaque calReason : Nat → Byte

/-- The codes of the failed check in event 0x0103, which R435 does not number: checks of R425 and R426 in their order, from 1. -/
opaque imageCheckCode : Nat → Byte

/-- One less than the flits of a message on a channel, by what has left before it (R334): the spec gives no coding of messages. -/
opaque moreFlits : Nat → Nat → Nat

/-- The set of a cluster's L2 cache that a line falls in (R196): the spec gives no index function. -/
opaque l2Set : Nat → Nat

/-- The set of a cluster TLB that an entry of an ASID, a level and a page falls in (R257): the spec gives no index function. -/
opaque tlbSet : Nat → Nat → Nat → Nat

/-- Which of the two crypto engines works on the records of a key slot: not given (R382, log entry 49). -/
opaque cryptoEngine : Nat → Bool

/-- Whether the L2 slice holds a DRAM line at a moment of a PORTDMA access (R54): the spec gives no rule for what a cache holds. -/
opaque l2Holds : Nat → Nat → Bool

end Sys2Proof.Config
end

