-- ==== Sys2Proof/Machine/Map.lean ====
section
/-! DEFINITION. Sparse maps: lists of (key, value) pairs in rising key order. `set` lists a value, `put` lists it unless it is the value
that an unlisted key reads as. -/

namespace Sys2Proof.Machine.Map

/-- The listed value at a key. -/
def find {α : Type} : List (Nat × α) → Nat → Option α
  | [], _ => none
  | (i, v) :: r, k => if i = k then some v else find r k

/-- The value at a key; an unlisted key reads as the default. -/
def get {α : Type} (d : α) (m : List (Nat × α)) (k : Nat) : α := (find m k).getD d

/-- Lists a value at a key, in order, replacing an earlier one. -/
def set {α : Type} : List (Nat × α) → Nat → α → List (Nat × α)
  | [], k, v => [(k, v)]
  | (i, w) :: r, k, v => if k < i then (k, v) :: (i, w) :: r else if i = k then (k, v) :: r else (i, w) :: set r k v

/-- Removes a key. -/
def erase {α : Type} (m : List (Nat × α)) (k : Nat) : List (Nat × α) := m.filter (fun p => decide (p.1 ≠ k))

/-- Writes a value in canonical form: the default is not listed. -/
def put {α : Type} [DecidableEq α] (d : α) (m : List (Nat × α)) (k : Nat) (v : α) : List (Nat × α) :=
  if v = d then erase m k else set m k v

/-- The keys rise strictly. -/
def sorted {α : Type} : List (Nat × α) → Bool
  | [] => true
  | [_] => true
  | (i, _) :: (j, w) :: r => decide (i < j) && sorted ((j, w) :: r)

/-- The canonical form: rising keys, and no value equal to the default. -/
def wf {α : Type} [DecidableEq α] (d : α) (m : List (Nat × α)) : Bool := sorted m && m.all (fun p => decide (p.2 ≠ d))

end Sys2Proof.Machine.Map
end

