-- ==== Sys2Proof/Machine/Operands.lean ====
section
/-! DEFINITION. Capability words: fields, bounds, fit, reach and the derivations over them (R34 to R46), and the operand forms of the
immediates (R81). All of it is pure. -/

namespace Sys2Proof

/-- The size of the virtual address space, 2^54. -/
def vaSpace : Nat := 0x40000000000000

/-- Bits lo to lo + w - 1 of a 128-bit value, as a number. -/
def field (v : Quad) (lo w : Nat) : Nat := (v.toNat >>> lo) % 2 ^ w

/-- A 128-bit value with bits lo to lo + w - 1 replaced. -/
def withField (v : Quad) (lo w x : Nat) : Quad :=
  let m : Nat := (2 ^ w - 1) <<< lo
  (v &&& ~~~(BitVec.ofNat 128 m)) ||| BitVec.ofNat 128 ((x % 2 ^ w) <<< lo)

/-- Bits lo to lo + w - 1 of a 64-bit word. -/
def bitsOf (v : Word) (lo w : Nat) : Nat := (v.toNat >>> lo) % 2 ^ w

/-- A 64-bit word with bits lo to lo + w - 1 replaced. -/
def withBits (v : Word) (lo w x : Nat) : Word :=
  let m : Nat := (2 ^ w - 1) <<< lo
  (v &&& ~~~(BitVec.ofNat 64 m)) ||| BitVec.ofNat 64 ((x % 2 ^ w) <<< lo)

/-- The CURSOR field (R34). -/
def Cap.cursor (c : Cap) : Nat := field c.bits 0 54
/-- The exponent E (R34). -/
def Cap.expo (c : Cap) : Nat := field c.bits 54 6
/-- The base mantissa B (R34). -/
def Cap.baseMant (c : Cap) : Nat := field c.bits 60 19
/-- The top mantissa T (R34). -/
def Cap.topMant (c : Cap) : Nat := field c.bits 79 19
/-- RIGHTS (R41). -/
def Cap.rights (c : Cap) : BitVec 14 := BitVec.ofNat 14 (field c.bits 98 14)
/-- CLR (R34). -/
def Cap.colour (c : Cap) : BitVec 4 := BitVec.ofNat 4 (field c.bits 112 4)
/-- SEAL (R44). -/
def Cap.seal (c : Cap) : Nat := field c.bits 116 12

/-- The rights by bit number from capability bit 98 (R41). -/
inductive Right where
  | ld | st | ex | ldc | stc | gl | stl | seal | unsl | clr | port | dev | vault | sys
  deriving DecidableEq, Repr

/-- A right's place in RIGHTS. -/
def Right.bit : Right → Nat
  | .ld => 0 | .st => 1 | .ex => 2 | .ldc => 3 | .stc => 4 | .gl => 5 | .stl => 6 | .seal => 7
  | .unsl => 8 | .clr => 9 | .port => 10 | .dev => 11 | .vault => 12 | .sys => 13

/-- Whether a capability holds a right (R41). -/
def Cap.has (c : Cap) (r : Right) : Bool := c.rights.getLsbD r.bit

/-- Units from the base up to the cursor (R37). -/
def Cap.unitsIn (c : Cap) : Nat := (c.cursor / 2 ^ c.expo + 524288 - c.baseMant) % 524288

/-- The decoded base (R37); 0 when E is above 35 (R36). -/
def Cap.base (c : Cap) : Nat :=
  if c.expo > 35 then 0
  else ((((c.cursor / 2 ^ c.expo : Nat) : Int) - (c.unitsIn : Int)) * (2 ^ c.expo : Nat) % (vaSpace : Nat)).toNat

/-- The decoded length (R37); 0 when E is above 35 (R36). -/
def Cap.length (c : Cap) : Nat :=
  if c.expo > 35 then 0
  else if c.expo = 35 ∧ c.topMant = c.baseMant then vaSpace
  else ((c.topMant + 524288 - c.baseMant) % 524288) * 2 ^ c.expo

/-- The decoded top (R37). -/
def Cap.top (c : Cap) : Nat := c.base + c.length

/-- A new cursor with nothing else changed. -/
def Cap.setCursor (c : Cap) (a : Nat) : Cap := { c with bits := withField c.bits 0 54 (a % vaSpace) }

/-- Whether address a is within reach of c (R40). -/
def Cap.inReach (c : Cap) (a : Nat) : Bool := decide ((a % vaSpace + vaSpace - c.base) % vaSpace < 2 ^ (c.expo + 19))

/-- The cursor moved to a mod 2^54; the tag stays only within reach (R40). -/
def Cap.moveCursor (c : Cap) (a : Nat) : Cap :=
  let a' := a % vaSpace
  { bits := (c.setCursor a').bits, tag := c.tag && c.inReach a' }

/-- (CURSOR + k) mod 2^54 for a signed k (R96). -/
def Cap.ea (c : Cap) (k : Int) : Nat := (((c.cursor : Nat) : Int) + k) % (vaSpace : Nat) |>.toNat

def Cap.setSeal (c : Cap) (t : Nat) : Cap := { c with bits := withField c.bits 116 12 t }
def Cap.setColour (c : Cap) (x : Nat) : Cap := { c with bits := withField c.bits 112 4 x }
def Cap.setRights (c : Cap) (r : BitVec 14) : Cap := { c with bits := withField c.bits 98 14 r.toNat }
/-- The GL right removed (R42, R75, R108). -/
def Cap.dropGl (c : Cap) : Cap := c.setRights (c.rights &&& 0x3FDF)
def Cap.untag (c : Cap) : Cap := { c with tag := false }

/-- E, B and T with the rounded bounds lo and hi, as fit of R39 returns them. -/
structure Fit where
  e : Nat
  b : Nat
  t : Nat
  lo : Nat
  hi : Nat
  deriving DecidableEq, Repr

/-- The search of R39 from exponent e, over the exponents left. -/
def fitFrom (b n : Nat) : Nat → Nat → Fit
  | _, 0 => { e := 35, b := 0, t := 0, lo := 0, hi := vaSpace }
  | e, k + 1 =>
    let u := 2 ^ e
    let lo := b / u * u
    let hi := (b + n + u - 1) / u * u
    if lo = 0 ∧ hi = vaSpace then { e := 35, b := 0, t := 0, lo := lo, hi := hi }
    else if (hi - lo) / u ≤ 524287 then { e := e, b := (lo / u) % 524288, t := (hi / u) % 524288, lo := lo, hi := hi }
    else fitFrom b n (e + 1) k

/-- fit(b, n) of R39. -/
def fit (b n : Nat) : Fit := fitFrom b n 0 36

/-- c with E, B and T of a fit (R106). -/
def Cap.withFit (c : Cap) (f : Fit) : Cap :=
  { c with bits := withField (withField (withField c.bits 54 6 f.e) 60 19 f.b) 79 19 f.t }

/-- Exact bounds lo to lo + n at cursor lo, where fit gives them (R280, R298). -/
def Cap.narrowTo (c : Cap) (lo n : Nat) : Cap := (c.setCursor lo).withFit (fit lo n)

/-- The exponent that fit chooses for length n at a base aligned to its unit (R107). -/
def fitExpo (n : Nat) : Nat → Nat → Nat
  | e, 0 => e
  | e, k + 1 => if (n + 2 ^ e - 1) / 2 ^ e ≤ 524287 then e else fitExpo n (e + 1) k

/-- CFITLEN (R107). -/
def fitLen (n : Nat) : Nat :=
  if n > vaSpace then 0 else let u := 2 ^ fitExpo n 0 35; (n + u - 1) / u * u

/-- CFITMASK (R107). -/
def fitMask (n : Nat) : Word :=
  if n > vaSpace then 0 else ~~~(BitVec.ofNat 64 (2 ^ fitExpo n 0 35 - 1))

/-- The root capability with a given cursor (R60). -/
def Cap.root (cursor : Nat) : Cap :=
  { bits := withField (withField (withField (withField 0 0 54 cursor) 54 6 35) 98 14 16383) 112 4 15, tag := true }

/-- The low 64 bits, where integer instructions read an operand (R62). -/
def Cap.low (c : Cap) : Word := c.bits.setWidth 64

/-- An integer result: bits [63:0], zero above, untagged (R62). -/
def Cap.ofWord (w : Word) : Cap := ⟨w.setWidth 128, false⟩

/-- An untagged 128-bit result (R62). -/
def Cap.ofQuad (q : Quad) : Cap := ⟨q, false⟩

/-- imm14 sign-extended to 64 bits (R81). -/
def sext14 (i : BitVec 14) : Word := i.signExtend 64

/-- imm14 taken as unsigned (R81). -/
def zext14 (i : BitVec 14) : Word := i.setWidth 64

/-- imm20 as a signed count of instruction words, in bytes (R81). -/
def off20 (i : BitVec 20) : Int := 4 * i.toInt

end Sys2Proof
end

