-- ==== Sys2Proof/Machine/Flags.lean ====
section
/-! DEFINITION. Money words, rounding and the sticky flags of MCTL: every result of a money instruction as one pure value (R122 to R143).
An exact rational result is a numerator over a positive denominator. -/

namespace Sys2Proof

/-- MCTL's sticky flags and trap enables, by bit (R128). -/
inductive MFlag where
  | minx | mform | mdz | msat | tform | tdz | tovf
  deriving DecidableEq, Repr

/-- A flag's bit in MCTL (R128). -/
def MFlag.bit : MFlag → Nat
  | .minx => 19 | .mform => 18 | .mdz => 17 | .msat => 16 | .tform => 14 | .tdz => 13 | .tovf => 12

/-- Whether a bit of MCTL is set. -/
def mctlHas (m : Word) (f : MFlag) : Bool := m.getLsbD f.bit

/-- The mask that sets one sticky flag. -/
def MFlag.mask (f : MFlag) : Word := (1 : Word) <<< f.bit

/-- The canonical VOID word (R125). -/
def moneyVoid : Quad := (1 : Quad) <<< 127

/-- The largest coefficient, 10^36 - 1 (R125). -/
def moneyMax : Nat := 999999999999999999999999999999999999

/-- A money operand as the instructions read it (R130). -/
inductive Money where
  | void | malformed | value (c : Int)
  deriving DecidableEq, Repr

/-- Limb k (R123). -/
def limb (q : Quad) (k : Nat) : Nat := field q (14 * k) 14

/-- The coefficient of limbs k - 1 to 0 after c, or none at a limb above 9999 (R130). -/
def coefficient (q : Quad) : Nat → Nat → Option Nat
  | 0, c => some c
  | k + 1, c => if limb q k > 9999 then none else coefficient q k (c * 10000 + limb q k)

/-- operand(x) of R130. -/
def moneyOperand (q : Quad) : Money :=
  if q.getLsbD 127 then .void
  else match coefficient q 9 0 with
    | none => .malformed
    | some c => .value (if q.getLsbD 126 then -(c : Int) else (c : Int))

/-- Limbs 0 to n - 1 of a magnitude, from limb k up. -/
def limbsOf (c : Nat) : Nat → Nat → Nat
  | _, 0 => 0
  | k, n + 1 => (c % 10000) * 2 ^ (14 * k) + limbsOf (c / 10000) (k + 1) n

/-- encode(r) of R130: SIGN only when r < 0. -/
def moneyEncode (r : Int) : Quad :=
  BitVec.ofNat 128 (limbsOf r.natAbs 0 9 + (if r < 0 then 2 ^ 126 else 0))

/-- round(q, m) of R130, for q = num / den. -/
def moneyRound (num : Int) (den : Nat) (mode : Nat) : Int :=
  let n := num.natAbs / den
  let r := num.natAbs % den
  let up : Bool :=
    match mode with
    | 0 => decide (2 * r > den) || (decide (2 * r = den) && decide (n % 2 = 1))
    | 1 => decide (2 * r ≥ den)
    | 2 => decide (2 * r > den)
    | 3 => false
    | 4 => decide (r > 0)
    | 5 => decide (r > 0) && decide (num > 0)
    | 6 => decide (r > 0) && decide (num < 0)
    | _ => false
  let n' : Nat := if up then n + 1 else n
  if num < 0 then -(n' : Int) else (n' : Int)

/-- What a money instruction does when it completes: writes a word and sets flags, or raises a cause (R131). -/
inductive MoneyResult where
  | write (value : Quad) (flags : Word)
  | trap (cause : Nat)
  deriving DecidableEq, Repr

/-- trap(te, f) of R130. -/
def moneyTraps (mctl : Word) (te : Bool) (f : MFlag) : Bool := te && mctlHas mctl f

/-- form_error of R130. -/
def formError (mctl : Word) (te : Bool) : MoneyResult :=
  if moneyTraps mctl te .tform then .trap 0x10 else .write moneyVoid MFlag.mform.mask

/-- finish of R130, for q = num / den. -/
def moneyFinish (mctl : Word) (te : Bool) (num : Int) (den : Nat) (mode : Nat) : MoneyResult :=
  let r := moneyRound num den mode
  if r.natAbs > moneyMax then
    if moneyTraps mctl te .tovf then .trap 0x0F
    else .write (moneyEncode (if num < 0 then -(moneyMax : Int) else moneyMax)) (MFlag.msat.mask ||| MFlag.minx.mask)
  else if r * den = num then .write (moneyEncode r) 0
  else .write (moneyEncode r) MFlag.minx.mask

/-- The M-format operations (R134). -/
inductive MoneyOp where
  | add | sub | mul | div | resc
  deriving DecidableEq, Repr

/-- m_arith of R134. -/
def moneyArith (op : MoneyOp) (x y : Quad) (s mode : Nat) (te : Bool) (mctl : Word) : MoneyResult :=
  match moneyOperand x, (if op = .resc then Money.value 0 else moneyOperand y) with
  | .void, _ => .write moneyVoid 0
  | _, .void => .write moneyVoid 0
  | .malformed, _ => formError mctl te
  | _, .malformed => formError mctl te
  | .value a, .value b =>
    match op with
    | .add => moneyFinish mctl te (a + b) 1 mode
    | .sub => moneyFinish mctl te (a - b) 1 mode
    | .mul => moneyFinish mctl te (a * b) (10 ^ s) mode
    | .div =>
      if b = 0 then (if moneyTraps mctl te .tdz then .trap 0x0E else .write moneyVoid MFlag.mdz.mask)
      else moneyFinish mctl te ((if b < 0 then -a else a) * (10 ^ s : Nat)) b.natAbs mode
    | .resc =>
      let t := field y 0 6
      if t > 35 then formError mctl te else moneyFinish mctl te (a * (10 ^ s : Nat)) (10 ^ t) mode

/-- MNEG and MABS (R139). -/
def moneyUnary (neg : Bool) (x : Quad) (te : Bool) (mctl : Word) : MoneyResult :=
  match moneyOperand x with
  | .void => .write moneyVoid 0
  | .malformed => formError mctl te
  | .value a => moneyFinish mctl te (if neg then -a else (a.natAbs : Int)) 1 0

/-- The comparisons of R139. -/
inductive MoneyCmp where
  | eq | lt | le
  deriving DecidableEq, Repr

/-- Whether a comparison holds on two coefficients. -/
def MoneyCmp.holds : MoneyCmp → Int → Int → Bool
  | .eq, a, b => decide (a = b)
  | .lt, a, b => decide (a < b)
  | .le, a, b => decide (a ≤ b)

/-- MCEQ, MCLT and MCLE (R139). -/
def moneyCompare (c : MoneyCmp) (x y : Quad) (te : Bool) (mctl : Word) : MoneyResult :=
  match moneyOperand x, moneyOperand y with
  | .void, _ => .write 0 0
  | _, .void => .write 0 0
  | .value a, .value b => .write (if c.holds a b then 1 else 0) 0
  | _, _ => if moneyTraps mctl te .tform then .trap 0x10 else .write 0 MFlag.mform.mask

/-- The value of digits i to i + n - 1 of an ASCII string after v, or none at a byte that is no digit (R142). -/
def asciiValue (q : Quad) : Nat → Nat → Nat → Option Nat
  | _, 0, v => some v
  | i, n + 1, v =>
    let ch := field q (8 * i) 8
    if ch < 0x30 ∨ ch > 0x39 then none else asciiValue q (i + 1) n (v * 10 + (ch - 0x30))

/-- A digit count: 0 means 16 (R142, R143). -/
def digitCount (n : BitVec 4) : Nat := if n = 0 then 16 else n.toNat

/-- MA2L (R142). -/
def moneyFromAscii (x digits : Quad) (n : Nat) (te : Bool) (mctl : Word) : MoneyResult :=
  match moneyOperand x with
  | .void => .write moneyVoid 0
  | .malformed => formError mctl te
  | .value a =>
    match asciiValue digits 0 n 0 with
    | none => formError mctl te
    | some v =>
      let q : Int := ((a.natAbs * 10 ^ n + v : Nat) : Int)
      moneyFinish mctl te (if a < 0 then -q else q) 1 0

/-- Digits p + n - 1 down to p of a magnitude as ASCII, the first in the lowest byte (R143). -/
def asciiDigits (c p : Nat) : Nat → Nat
  | 0 => 0
  | n + 1 =>
    let pos := p + n
    (if pos > 35 then 0x30 else 0x30 + c / 10 ^ pos % 10) + 256 * asciiDigits c p n

/-- n question marks (R143). -/
def asciiUnknown : Nat → Nat
  | 0 => 0
  | n + 1 => 0x3F + 256 * asciiUnknown n

/-- ML2A (R143). -/
def moneyToAscii (x pos : Quad) (n : Nat) (te : Bool) (mctl : Word) : MoneyResult :=
  match moneyOperand x with
  | .void => .write (BitVec.ofNat 128 (asciiUnknown n)) 0
  | .malformed =>
    if moneyTraps mctl te .tform then .trap 0x10 else .write (BitVec.ofNat 128 (asciiUnknown n)) MFlag.mform.mask
  | .value a => .write (BitVec.ofNat 128 (asciiDigits a.natAbs (field pos 0 6) n)) 0

/-- MCVTI (R141). -/
def moneyFromInt (w : Word) : MoneyResult := .write (moneyEncode w.toInt) 0

/-- MCVTM (R141). -/
def moneyToInt (x : Quad) (te : Bool) (mctl : Word) : MoneyResult :=
  let lowest : Word := 0x8000000000000000
  match moneyOperand x with
  | .void => .write (lowest.setWidth 128) 0
  | .malformed => if moneyTraps mctl te .tform then .trap 0x10 else .write (lowest.setWidth 128) MFlag.mform.mask
  | .value a =>
    if a.natAbs ≤ 9223372036854775807 then .write ((BitVec.ofInt 64 a).setWidth 128) 0
    else if moneyTraps mctl te .tovf then .trap 0x0F
    else .write ((BitVec.ofInt 64 (if a < 0 then -9223372036854775807 else 9223372036854775807)).setWidth 128)
      (MFlag.msat.mask ||| MFlag.minx.mask)

/-- MLGET's field k (R140). -/
def limbGet (q : Quad) (k : Nat) : Nat := if k = 9 then field q 126 2 else limb q k

/-- MLSET's word (R140). -/
def limbSet (q : Quad) (k : Nat) (v : Nat) : Quad := if k = 9 then withField q 126 2 v else withField q (14 * k) 14 v

/-- A write of MCTL: reserved bits read 0, ROUND 7 and SCALE above 35 leave their field unchanged (R11, R128). -/
def mctlWrite (old new : Word) : Word :=
  let kept : Word := new &&& 0xF7000
  let rnd := if bitsOf new 6 3 = 7 then bitsOf old 6 3 else bitsOf new 6 3
  let sc := if bitsOf new 0 6 > 35 then bitsOf old 0 6 else bitsOf new 0 6
  withBits (withBits kept 6 3 rnd) 0 6 sc

/-- The scale and the rounding mode of an M-format instruction (R127), none where R82 gives ILLEGAL_OP. -/
def moneyScale (scale : BitVec 6) (round : BitVec 3) (mctl : Word) : Option (Nat × Nat) :=
  if scale = 63 then (if round = 0 then some (bitsOf mctl 0 6, bitsOf mctl 6 3) else none)
  else if scale.toNat > 35 ∨ round = 7 then none
  else some (scale.toNat, round.toNat)

end Sys2Proof
end

