-- ==== Sys2Proof/Machine/State.lean ====
section
/-! DEFINITION. The state of the unit as plain data, and the state right after cold reset (R9, R61, R418). Sparse maps are lists of
(key, value) pairs in rising key order that list no default value; a register of the 0x3F00 blocks lives in `regs` under its
physical address, and reads its reset value while it is not listed. -/

namespace Sys2Proof.Machine

/-- The unit never stops with a fault: every cause of R278 is taken as an exception, a plate abort or an event, each a next
state. No meaning raises one, so the type has no constructor (safe). -/
inductive Fault where
  deriving DecidableEq, Repr

/-- Why a command has no meaning here. -/
inductive Refusal where
  /-- Raised by exec's arm of a command that is not modelled yet (safe: nothing follows from it). -/
  | notModelled (mnemonic : String)
  deriving DecidableEq, Repr

/-- The outcome of a command. -/
abbrev Result (σ : Type) := Host.Outcome σ Fault Refusal

/-- Why a thread is PARKED (R67, R181): the results with these stamps, a busy divider, a busy money divider, an instruction fetch, a held line;
`block` says that the read of a block iteration meets it, which an interrupt abandons (R158). -/
inductive ParkWhy where
  | result (stamps : List Nat) | divider | moneyDivider | fetch (line : Nat) | heldLine (block : Bool)
  deriving DecidableEq, Repr

/-- What a WAITING thread waits for (R65, R282). `interrupt` is a thread whose wait an interrupt has abandoned and whose entry waits for outstanding
results (R74). -/
inductive WaitWhy where
  | fence (mask : BitVec 4) | sync | syncI
  | texit
  | invalStores (operand : Word) | inval
  | pbegin (rd : Reg) (off : BitVec 14) (defer : Bool)
  | pcommit
  | pwait (rd : Reg) (lo hi stamp : Nat)
  | tstart (rd : Reg) (target : Tid) (lv : Level) (entry arg : Cap)
  | entry
  | interrupt
  deriving DecidableEq, Repr

/-- Thread states (R65). -/
inductive TState where
  | empty | ready | parked (why : ParkWhy) | waiting (why : WaitWhy) | stopped
  deriving DecidableEq, Repr

/-- A return-stack entry (R61, R75). -/
structure RsEntry where
  cap : Cap
  world : World
  level : Level
  deriving DecidableEq, Repr

/-- Writes of one granule event: bytes, a capability store, a painting (R55, R56). -/
inductive GWrite where
  | bytes (addr : Nat) (data : List Byte)
  | cap (granule : Nat) (value : Cap)
  | paint (granule : Nat) (colour : BitVec 4)
  deriving DecidableEq, Repr

/-- A store that has issued and is not yet visible to others, or a Device store not yet answered (R170, R173). `stamp` is the
value of `fresh` at its issue, which orders the accesses of a thread. -/
structure PStore where
  stamp : Nat
  writes : List GWrite
  device : Bool
  deriving DecidableEq, Repr

/-- The atomic operations of R114. -/
inductive AtomOp where
  | swap | add | and | or | xor | max | min | maxu | minu | cas
  deriving DecidableEq, Repr

/-- What an outstanding result will do when it arrives (R71, R72). `segs` are the physical byte ranges it reads. -/
inductive OutKind where
  | divide (value : Word)
  | moneyMul (value : Quad) (flags : Word)
  | moneyDiv (value : Quad) (flags : Word)
  | moneyTrap (divider : Bool) (cause : Nat)
  | load (segs : List (Nat × Nat)) (signed : Bool) (asCap ldc : Bool)
  | device (value : Cap)
  | atomic (op : AtomOp) (size : Nat) (addr : Nat) (operand expected : Cap) (aq rl : Bool)
  deriving DecidableEq, Repr

/-- An outstanding result and its destination. -/
structure Out where
  stamp : Nat
  rd : Reg
  te : Bool
  kind : OutKind
  deriving DecidableEq, Repr

/-- An exception entry that has not begun (R74, R280): the cause word, the fault address, and an
interrupt's priority. -/
structure PEntry where
  cause : Word
  fa : Word
  prio : Option (BitVec 4)
  deriving DecidableEq, Repr

/-- The phases of a plate (R189). -/
inductive Phase where
  | none | live | committing | held
  deriving DecidableEq, Repr

/-- A thread's plate and its status word (R187, R193, R213, R214). `tookRecv` and `tookSend` say that it has executed a PRECV or a PSEND, `ports` on
which ports (R192, R210). -/
structure Plate where
  phase : Phase
  pdepth : Nat
  rd : Reg
  target : Cap
  defer : Bool
  rsDepth : Nat
  reads : List Nat
  writes : List (Nat × Granule)
  cleared : List Nat
  consumed : List (Nat × Nat)
  sends : List Nat
  tookRecv : Bool
  tookSend : Bool
  ports : List Nat
  handover : Bool
  csn : Nat
  commitRd : Reg
  group : BitVec 4
  tally : Int
  code : BitVec 8
  shared : Bool
  wasDefer : Bool
  retry : Bool
  adepth : Nat
  cause : Nat
  abortPc : BitVec 54
  lastCsn : Nat
  deriving DecidableEq, Repr

/-- The architectural state of one thread (R61, R87, R250, R271). `resume` says that the line it waited for has been published and its
instruction has not issued again (R181). `sinceTick` counts the instructions issued since the last ledger tick (R382, R385). `refetch` holds the lines of the L1 instruction cache that its last SYNC.I has discarded for it (R116). A pending RWS write is `some` until SYNC (R90, R92). -/
structure Thread where
  st : TState
  regs : List (Nat × Cap)
  pcc : Cap
  rstack : List RsEntry
  world : World
  level : Level
  tgrp : BitVec 4
  tgrpP : Option (BitVec 4)
  rsMode : Bool
  rsModeP : Option Bool
  mctl : Word
  pkeys : Quad
  ipl : BitVec 4
  iplP : Option (BitVec 4)
  trootM : Word
  trootMP : Option Word
  trootV : Word
  trootVP : Option Word
  pklock : Word
  pklockP : Option Word
  evecM : Cap
  stkM : Cap
  estkM : Cap
  evecV : Cap
  stkV : Cap
  estkV : Cap
  tstk : Cap
  testk : Cap
  issued : Nat
  sinceTick : Nat
  parkcyc : Nat
  excnt : Nat
  intcnt : Nat
  tlbmiss : Nat
  walks : Nat
  parity : List Nat
  outs : List Out
  stores : List PStore
  refetch : List Nat
  entry : Option PEntry
  plate : Plate
  lastPort : Option Nat
  brkClaim : Bool
  stopReq : Bool
  stepping : Bool
  resume : Bool
  deriving DecidableEq, Repr

/-- A translation held by a TLB (R257): `page` is the virtual address divided by the page size of `level`. A pointer entry
(`leaf` false) names the next table. A `bad` entry has an uncorrectable error (R258). -/
structure TlbEntry where
  asid : BitVec 12
  world : World
  level : Nat
  page : Nat
  leaf : Bool
  entry : Word
  bad : Bool
  deriving DecidableEq, Repr

/-- Power states of a domain (R379, R394): ACTIVE, CLOCK-GATED, RETENTION, OFF, waking. -/
inductive Power where
  | active | gated | retention | off | waking
  deriving DecidableEq, Repr

/-- One tile (R18, R66, R72, R257, R287). -/
structure Tile where
  cycles : Nat
  lastIssued : Nat
  divBusy : Bool
  mdivBusy : Bool
  tlb : List TlbEntry
  l1i : List (Nat × List Byte)
  pend : List Nat
  deriving DecidableEq, Repr

/-- One DDR5 channel after training (R455, R22): its capacity, or the failure reason, and whether its initialisation is over (R422). -/
structure Channel where
  bytes : Nat
  failed : Option Nat
  initDone : Bool
  deriving DecidableEq, Repr

/-- A broadcast invalidation in progress (R260). `gone` lists the tiles that have removed their entries, each with the stamp before which an access
of it must complete before it acknowledges; `tiles` and `clusters` have not acknowledged. -/
structure Inval where
  gone : List (Nat × Nat)
  tid : Tid
  operand : Word
  tiles : List Nat
  clusters : List Nat
  deriving DecidableEq, Repr

/-- Whose plate a request at the commit sequencer is for: a thread's, the handover plate and the one after a failed handover, or the arrival plate
of a port (R198, R349, R351). -/
inductive Committer where
  | thread (t : Tid) | cutOff | revert | arrival (port : Nat)
  deriving DecidableEq, Repr

/-- A request at the commit sequencer (R198): `journalled` requests keep their order. -/
structure Request where
  who : Committer
  journalled : Bool
  deriving DecidableEq, Repr

/-- A CSN that is not yet durable (R224). A volatile plate's has no record and `len` 0. `mirrored` says which condition it must
meet: the partner's acknowledgement, or its Write to the journal ring. A plate of the unit itself (R349) has no thread; what it
publishes stands in `writes` and `cursors`. -/
structure JRec where
  csn : Nat
  tid : Option Tid
  writes : List (Nat × Granule)
  cursors : List (Nat × Quad)
  journalled : Bool
  pos : Nat
  len : Nat
  mirrored : Bool
  acked : Bool
  media : Bool
  deriving DecidableEq, Repr

/-- Commands to the drive of root port 0 or 1, oldest first (R226, R230, R232, R236, R238, R355). -/
inductive NvmeCmd where
  | ring (upto : Nat)
  | block (n : Nat)
  | cursors
  | flush
  | marker (proof scsn jpos : Nat)
  | spill
  | zeroHeader
  | repairRead (line : Nat)
  deriving DecidableEq, Repr

/-- The area header of a drive (R228). -/
structure AreaHeader where
  fmtid : Word
  unit : BitVec 10
  durBase : Nat
  durSize : Nat
  spillLba : Nat
  jringLba : Nat
  jringBlocks : Nat
  imgLba : Nat
  deriving DecidableEq, Repr

/-- A proof marker (R231). -/
structure Marker where
  proof : Nat
  scsn : Nat
  jpos : Nat
  fmtid : Word
  unit : BitVec 10
  durSize : Nat
  deriving DecidableEq, Repr

/-- A spill header and the bytes spilled after it (R456). -/
structure Spill where
  fmtid : Word
  unit : BitVec 10
  pfmt : BitVec 32
  punit : BitVec 16
  sjpos : Nat
  data : List Byte
  deriving DecidableEq, Repr

/-- What a drive holds, by byte address in its namespace (R227, R228): a byte that `cells` does not list is 0. The bytes of tag-colour regions
stand in `tags`, where one that is not listed is 0x0F, as FORMAT leaves it (R232). -/
structure Drive where
  cells : List Host.Cell
  tags : List Host.Cell
  deriving DecidableEq, Repr

/-- A proof being etched (R230). -/
structure Proof where
  num : Nat
  scsn : Nat
  jpos : Nat
  deriving DecidableEq, Repr

/-- What OPEN or a takeover has replayed so far, and whom it has asked (R240, R241, R355). -/
structure Replay where
  header : AreaHeader
  proof : Nat
  scsn : Nat
  markerPos : Nat
  pos : Nat
  expect : Nat
  applied : Bool
  asking : List UnitAddr
  firstAsked : Option UnitAddr
  deriving DecidableEq, Repr

/-- The commit sequencer and the Etcher (R198, R216 to R241) beside their registers. `mirrorEnds` are the positions where the records of the mirror
ring end (R223), `undrained` the CSN, position and length of records that are durable and not yet drained (R239). -/
structure Etcher where
  queue : List Request
  recs : List JRec
  drained : Nat
  writeIssued : Nat
  nvme : List NvmeCmd
  drainStopped : Bool
  dirty : List Nat
  proof : Option Proof
  boundaryWaits : Bool
  proofPos : Nat
  locked : Bool
  formatting : Bool
  openFail : Option Nat
  replay : Option Replay
  pfailFilter : Bool
  draining : Bool
  warmPending : Bool
  fenced : Bool
  fenceDue : Bool
  dispatched : Nat
  mirrorSrc : Option UnitAddr
  mirrorFrom : Nat
  mirrorTo : Nat
  mirrorEnds : List Nat
  mirrorFmt : Nat
  undrained : List (Nat × Nat × Nat)
  reported : Nat
  repair : List Nat
  tailAsked : List (UnitAddr × Word × Nat)
  deriving DecidableEq, Repr

/-- A receive descriptor (R298); its consumption moves SOFF past `span` stream bytes, of which the first `lead` were discarded before the message
(R299, R311); `hs` marks a HANDSHAKE-form message (R308). -/
structure RxDesc where
  len : Nat
  off : Nat
  num : Nat
  lead : Nat
  span : Nat
  hs : Bool
  freed : Nat
  deriving DecidableEq, Repr

/-- A transmit entry (R298, R457): the stamp of R318, the plate that holds it, the CSN that releases it (R319), whether a plate sent it, whether a
CLOSE came before it (R297), and, once TCP has taken it, its first sequence number and its bytes on the wire. -/
structure TxEntry where
  cap : Cap
  len : Nat
  stamp : Nat
  plate : Option Tid
  need : Nat
  ofPlate : Bool
  late : Bool
  released : Bool
  sent : Bool
  dead : Bool
  taken : Bool
  startSeq : BitVec 32
  wire : List Byte
  deriving DecidableEq, Repr

/-- One conversation port (R293 to R300, R457). `stream` holds received bytes not yet delimited, `cipher` bytes of an unfinished TLS
record, `finData` the alert that the FIN carried. `moved` is the unit and port that a handover's commit names, `away` that the state has gone
there (R349), `resendDue` that a segment to send again waits for a held line (R180). -/
structure Port where
  state : PState
  world : World
  listener : Nat
  troot : Word
  conf : Word
  confNext : Option Word
  rxbuf : Cap
  laddr : Quad
  raddr : Quad
  lport : BitVec 16
  rport : BitVec 16
  peerMac : BitVec 48
  vlan : Option (BitVec 12)
  mac : Nat
  v6 : Bool
  tcb : Tcb
  tls : Bool
  rxSlot : Option Nat
  txSlot : Option Nat
  rxStopped : Bool
  wOff : Nat
  rOff : Nat
  resv : Nat
  stream : List Byte
  cipher : List Byte
  hsQueue : List (List Byte)
  skip : Nat
  skipDelim : Bool
  spanDone : Nat
  rxq : List RxDesc
  txq : List TxEntry
  msgsIn : Nat
  bytesIn : Nat
  msgsOut : Nat
  txDone : Nat
  policy : Nat
  trunc : Nat
  bindno : Nat
  gen : BitVec 16
  soff : BitVec 32
  consumed : Nat
  notice : Notice
  noticeReturned : Bool
  claim : Option Tid
  closeReq : Bool
  finSent : Bool
  finRcvd : Bool
  finFirst : Bool
  finSeen : Bool
  finData : List Byte
  resendDue : Bool
  timeWait : Bool
  releaseReq : Bool
  moved : Option (UnitAddr × Nat)
  away : Bool
  reserved : Bool
  fwdWindow : Bool
  deriving DecidableEq, Repr

/-- What LPOOL installs for a listener (R321, R324). -/
structure Pool where
  cap : Cap
  world : World
  troot : Word
  deriving DecidableEq, Repr

/-- A key slot (R307). -/
structure KeySlot where
  installed : Bool
  aes256 : Bool
  key : BitVec 256
  iv : BitVec 96
  seqNo : Word
  deriving DecidableEq, Repr

/-- One Sudon link's flit state (R334, R335): the last flit received in sequence, failures in a row, the peer's last acknowledgement, by channel the
credits held, the flits that wait for one and the buffers freed since the last report, and the neighbour being probed since the link went down. -/
structure LinkState where
  rxSeq : BitVec 12
  failures : Nat
  ackSeq : BitVec 12
  credits : List Nat
  queued : List Nat
  freed : List Nat
  probing : Option UnitAddr
  deriving DecidableEq, Repr

/-- The steps of a handover at the old unit (R349). -/
inductive HoStep where
  | idle | reserving | cutoff | drain | transferring | revert
  deriving DecidableEq, Repr

/-- A handover that arrives at this unit (R349): what is reserved, and, once its transfer has arrived, the CSN of the arrival plate or the
proof that must complete; `oldCur` is the receive-cursor granule that the arrival plate has not yet replaced, `source` the port number at the old unit or the PARTID,
`package` a transfer whose messages wait for a held line of the receive ring (R180). -/
structure Incoming where
  sender : UnitAddr
  partition : Bool
  gen : BitVec 16
  obj : Nat
  source : Nat
  arrived : Bool
  csn : Option Nat
  oldCur : Quad
  proof : Nat
  package : Option Transfer
  deriving DecidableEq, Repr

/-- Takeover phases (R355). -/
inductive TakeStep where
  | idle | fencing | waiting | loading
  deriving DecidableEq, Repr

/-- The Sudon chain's state beside its registers (R337 to R355). `place` is the position that the token or the join gave, before an override (R342). -/
structure Sudon where
  ring : BitVec 4
  place : BitVec 6
  order : List (BitVec 6)
  links : List (Nat × LinkState)
  tokenSeen : Bool
  eastSent : Bool
  westSent : Bool
  enumDone : Bool
  lost : List UnitAddr
  hoStep : HoStep
  hoTarget : UnitAddr
  hoPartition : Bool
  hoObj : Nat
  hoGen : BitVec 16
  hoCsn : Nat
  hoTObj : Nat
  incoming : List Incoming
  take : TakeStep
  takeUnit : UnitAddr
  takeReplay : Option Replay
  deriving DecidableEq, Repr

/-- Bellows beside its registers (R376, R381 to R390). Energies are integers in units of 1 fJ ÷ (2^19 × 100). `events` holds each domain's A2 and A3 since
the last tick, as commands bring them (R382). -/
structure Bellows where
  bucket : Int
  purses : List (Nat × Int)
  epp : List (Nat × Int)
  energy : Int
  msEstimate : Int
  msOther : Int
  committed : List (Nat × Nat)
  corrNext : Word
  thermalCap : Bool
  planDue : Option (Nat × Nat × Word)
  emergencyDue : Bool
  settling : Option Nat
  vout : List Nat
  domains : List (Nat × Power)
  etherLost : Bool
  events : List (Nat × (Nat × Nat))
  deriving DecidableEq, Repr

/-- The calibration store (R395, R396). -/
structure Calibration where
  page : List (Nat × Byte)
  staging : List (Nat × Byte)
  keys : Nat
  keyAt : Nat
  busy : Bool
  failed : Bool
  defaults : Bool
  erases : Nat
  deriving DecidableEq, Repr

/-- An admitted event (R401, R405). -/
structure Event where
  code : BitVec 16
  source : BitVec 16
  payload : List Byte
  deriving DecidableEq, Repr

/-- The recorder beside its registers (R399 to R409). -/
structure Recorder where
  slots : List (Nat × List Byte)
  count : Nat
  queue : List Event
  admitted : List (Nat × Nat)
  suppressed : List (Nat × Nat)
  snapshot : List Byte
  deriving DecidableEq, Repr

/-- TAP instructions (R410). -/
inductive TapIr where
  | extest | samplePreload | idcode | dbgxfer | bypass
  deriving DecidableEq, Repr

/-- TAP and debug module (R410 to R413). -/
structure Debug where
  ir : TapIr
  everXfer : Bool
  status : Nat
  data : Word
  thrSel : Tid
  regSel : BitVec 8
  deriving DecidableEq, Repr

/-- Boot progress (R421 to R429). -/
structure Boot where
  step3 : Bool
  step4 : Bool
  step5 : Bool
  step6 : Bool
  released : Bool
  entryAddr : BitVec 54
  subsys : BitVec 32
  image : List Byte
  hostLocked : Bool
  epLinkUp : Bool
  porst : Bool
  ddrTrained : Bool
  linksUp : Bool
  startedAt : Nat
  deriving DecidableEq, Repr

/-- The endpoint's MSI-X function state (R428, R433). -/
structure Msix where
  enable : Bool
  functionMask : Bool
  pending : List Nat
  deriving DecidableEq, Repr

/-- What leaves the unit, newest last: segments and raw frames, chain messages, MSI-X vectors, host completions. -/
inductive Output where
  | segment (port : Nat) (h : SentHeader) (g : Segment)
  | answer (mac : Nat) (h : SentHeader) (g : Segment)
  | rawFrame (mac : Nat) (data : List Byte)
  | mirror (jpos : Nat) (data : List Byte)
  | ack (unit : UnitAddr) (jpos : Nat)
  | drainedReport (jpos : Nat)
  | tailRequest (unit requester : UnitAddr) (fmtid : Word) (pos : Nat)
  | tailAnswer (unit : UnitAddr) (data : Option (List Byte))
  | token (t : Token)
  | positions (ring : BitVec 4) (order : List (BitVec 6)) (closed : Bool)
  | addressRequest (l : Link)
  | addressAnswer (l : Link) (ring : BitVec 4) (position : BitVec 6)
  | probe (origin target : UnitAddr) (via : Link)
  | probeAnswer (origin : UnitAddr) (reached : Bool)
  | reserve (r : Reservation) (target : UnitAddr)
  | reserveAnswer (target : UnitAddr) (partition : Bool) (object : Nat) (gen : BitVec 16) (a : ReserveAnswer)
  | transfer (x : Transfer) (target : UnitAddr)
  | handoverAck (target : UnitAddr) (partition : Bool) (object : Nat) (gen : BitVec 16)
  | forwarded (target : UnitAddr) (port : Nat) (gen : BitVec 16) (mac : Nat) (f : Frame)
  | flitAnswer (l : Link) (nak : Bool) (ackSeq : BitVec 12) (freed : List Nat)
  | delivered (l : Link) (ch : Nat) (data : List Byte)
  | passedOn (l : Link) (ch : Nat) (data : List Byte)
  | msix (vector : Nat)
  | hostCompletion (data : Option (List Byte))
  | completerAbort
  | vout (step : Nat)
  deriving DecidableEq, Repr

/-- An access of HOST or DEBUG that waits for a held line (R180): a read of `len` bytes, or a write. -/
structure BusWait where
  host : Bool
  addr : Nat
  len : Nat
  data : Option (List Byte)
  deriving DecidableEq, Repr

/-- A frame for a raw receive ring that waits for a held line (R180, R305). -/
structure RawWait where
  mac : Nat
  vlan : Option (BitVec 12)
  data : List Byte
  deriving DecidableEq, Repr

/-- The whole unit. `ue` holds the DRAM lines in uncorrectable error (R58), `weak` those with one failed device, and its position (R22, R50),
`sramErr` the SRAM macros with a double-bit error that is not reported yet: class, instance, array index (R21, R22). `posted` holds register writes
of the unit's engines that the same command still performs. -/
structure State where
  pending : List Instr
  i20 : Bool
  straps : Straps
  fuseDebug : Bool
  keyHash : BitVec 384
  timeNow : Nat
  fresh : Nat
  halted : Bool
  thermTrip : Bool
  threads : List (Nat × Thread)
  tiles : List (Nat × Tile)
  ctlb : List (Nat × List TlbEntry)
  l2 : List (Nat × List Nat)
  mem : List Host.Cell
  gran : List (Nat × (Bool × BitVec 4))
  ue : List (Nat × Bool)
  weak : List (Nat × Nat)
  sramErr : List (Nat × Nat × Nat)
  busWaits : List BusWait
  posted : List (Master × Nat × List Byte)
  rawWaits : List RawWait
  channels : List (Nat × Channel)
  regs : List (Nat × Word)
  gateOld : List (Nat × List (List (Nat × Word)))
  gateMark : List (Nat × Nat)
  rawStopped : List (Nat × Bool)
  invals : List Inval
  etch : Etcher
  drive0 : Drive
  drive1 : Drive
  ports : List (Nat × Port)
  pools : List (Nat × Option Pool)
  keys : List (Nat × KeySlot)
  stagedKey : BitVec 256
  stagedIv : BitVec 96
  sudon : Sudon
  bellows : Bellows
  cal : Calibration
  recorder : Recorder
  dbg : Debug
  boot : Boot
  msix : Msix
  out : List Output
  deriving DecidableEq, Repr

/-- The plate of a thread that has opened none (R214). -/
def Plate.reset : Plate :=
  { phase := .none, pdepth := 0, rd := 0, target := Cap.null, defer := false, rsDepth := 0, reads := [], writes := [], cleared := [],
    consumed := [], sends := [], tookRecv := false, tookSend := false, ports := [], handover := false, csn := 0, commitRd := 0, group := 0, tally := 0,
    code := 0, shared := false, wasDefer := false, retry := false, adepth := 0, cause := 0, abortPc := 0, lastCsn := 0 }

/-- MCTL after reset: TFORM, TDZ and TOVF set, SCALE 2 (R128). -/
def mctlReset : Word := 0x7002

/-- An EMPTY thread: every register null, every control register at its reset value (R60, R65, R87, R274). World and level of an
EMPTY thread are DESIGN CHOICE (log entry 2): those that R89 gives as reset. -/
def Thread.reset : Thread :=
  { st := .empty, regs := [], pcc := Cap.null, rstack := [], world := .vault, level := .supervisor, tgrp := 0, tgrpP := none,
    rsMode := false, rsModeP := none, mctl := mctlReset, pkeys := 0, ipl := 0, iplP := none, trootM := 0, trootMP := none,
    trootV := 0, trootVP := none, pklock := 0, pklockP := none, evecM := Cap.null, stkM := Cap.null, estkM := Cap.null,
    evecV := Cap.null, stkV := Cap.null, estkV := Cap.null, tstk := Cap.null, testk := Cap.null, issued := 0, sinceTick := 0, parkcyc := 0,
    excnt := 0, intcnt := 0, tlbmiss := 0, walks := 0, parity := [], outs := [], stores := [], refetch := [], entry := none, plate := Plate.reset,
    lastPort := none, brkClaim := false, stopReq := false, stepping := false, resume := false }

/-- A tile after reset. -/
def Tile.reset : Tile :=
  { cycles := 0, lastIssued := 7, divBusy := false, mdivBusy := false, tlb := [], l1i := [], pend := [] }

/-- A drive with nothing valid on it (log entry 6). -/
def Drive.blank : Drive :=
  { cells := [], tags := [] }

/-- The sequencer and Etcher after reset (R233). -/
def Etcher.reset : Etcher :=
  { queue := [], recs := [], drained := 0, writeIssued := 0, nvme := [], drainStopped := false, dirty := [], proof := none,
    boundaryWaits := false, proofPos := 0, locked := false, formatting := false, openFail := none, replay := none, pfailFilter := false,
    draining := false, warmPending := false, fenced := false, fenceDue := false, dispatched := 0, mirrorSrc := none, mirrorFrom := 0, mirrorTo := 0,
    mirrorEnds := [], mirrorFmt := 0, undrained := [], reported := 0, repair := [], tailAsked := [] }

/-- An unused TCP control block. -/
def Tcb.reset : Tcb :=
  { sndUna := 0, sndNxt := 0, sndWnd := 0, sndWl1 := 0, sndWl2 := 0, rcvNxt := 0, rcvWnd := 0, sndScale := 0, rcvScale := 0, mss := 0, cwnd := 0, ssthresh := 0,
    dupAcks := 0, srtt := 0, rttvar := 0, rto := 0, tsRecent := 0, tsOn := false, sackOn := false, rtxCount := 0, ackDue := 0,
    held := [], recover := none, guard := none, timed := none }

/-- CONF after reset: MAX_FRAME 16,384, DELIM 0x0A, HOLD 1, FRAMING 1 (R300). -/
def confReset : Word := 0x40000A81

/-- A FREE port (R294, R298, R299). -/
def Port.reset : Port :=
  { state := .free, world := .main, listener := 0, troot := 0, conf := confReset, confNext := none, rxbuf := Cap.null, laddr := 0,
    raddr := 0, lport := 0, rport := 0, peerMac := 0, vlan := none, mac := 0, v6 := false, tcb := Tcb.reset, tls := false,
    rxSlot := none, txSlot := none, rxStopped := false, wOff := 0, rOff := 0, resv := 0, stream := [], cipher := [], hsQueue := [],
    skip := 0, skipDelim := false, spanDone := 0, rxq := [], txq := [], msgsIn := 0, bytesIn := 0, msgsOut := 0, txDone := 0,
    policy := 0, trunc := 0, bindno := 0, gen := 0, soff := 0, consumed := 0, notice := .none, noticeReturned := false,
    claim := none, closeReq := false, finSent := false, finRcvd := false, finFirst := false, finSeen := false, finData := [], resendDue := false, timeWait := false,
    releaseReq := false, moved := none, away := false, reserved := false, fwdWindow := false }

/-- An erased key slot. -/
def KeySlot.reset : KeySlot := { installed := false, aes256 := false, key := 0, iv := 0, seqNo := 0 }

/-- A link with no flit exchanged: 32 credits on each channel (R334). -/
def LinkState.reset : LinkState := { rxSeq := 0, failures := 0, ackSeq := 0, credits := [32, 32, 32], queued := [0, 0, 0], freed := [0, 0, 0], probing := none }

/-- The chain before enumeration. -/
def Sudon.reset : Sudon :=
  { ring := 0, place := 0, order := [], links := [], tokenSeen := false, eastSent := false, westSent := false, enumDone := false, lost := [], hoStep := .idle, hoTarget := 0,
    hoPartition := false, hoObj := 0, hoGen := 0, hoCsn := 0, hoTObj := 0, incoming := [],
    take := .idle, takeUnit := 0, takeReplay := none }

/-- One µJ in the ledger's unit. -/
def microJoule : Int := 1000000000 * 52428800

/-- The bucket is full after cold reset: RESERVE is 50 mJ (R384, R392). -/
def Bellows.reset : Bellows :=
  { bucket := 50000 * microJoule, purses := [], epp := [], energy := 0, msEstimate := 0, msOther := 0, committed := [],
    corrNext := 0x10000, thermalCap := false, planDue := none, emergencyDue := false, settling := none, vout := [],
    domains := [], etherLost := false, events := [] }

def Calibration.reset : Calibration :=
  { page := [], staging := [], keys := 0, keyAt := 0, busy := false, failed := false, defaults := false, erases := 0 }

def Recorder.reset : Recorder :=
  { slots := [], count := 0, queue := [], admitted := [], suppressed := [], snapshot := [] }

/-- The TAP selects IDCODE on Test-Logic-Reset (R410). -/
def Debug.reset : Debug :=
  { ir := .idcode, everXfer := false, status := 0, data := 0, thrSel := 0, regSel := 0 }

def Boot.reset : Boot :=
  { step3 := false, step4 := false, step5 := false, step6 := false, released := false, entryAddr := 0, subsys := 0, image := [],
    hostLocked := false, epLinkUp := false, porst := true, ddrTrained := false, linksUp := false,
    startedAt := 0 }

/-- A channel before training: DESIGN CHOICE, no capacity (log entry 2). -/
def Channel.reset : Channel := { bytes := 0, failed := none, initDone := false }

/-- The straps when left open (R443). -/
def Straps.reset : Straps := { anchor := false, ring := 0, bootsrc := 0, mirrorEn := true }

/-- The unit right after cold reset (R65, R233, R418): boot has not begun, every thread is EMPTY, nothing is listed in memory, every
register reads its reset value. -/
def State.reset : State :=
  { pending := [], i20 := false, straps := Straps.reset, fuseDebug := false, keyHash := 0, timeNow := 0, fresh := 0, halted := false,
    thermTrip := false, threads := [], tiles := [], ctlb := [], l2 := [], mem := [], gran := [], ue := [], weak := [], sramErr := [], busWaits := [],
    posted := [], rawWaits := [], channels := [], regs := [],
    gateOld := [], gateMark := [], rawStopped := [], invals := [], etch := Etcher.reset, drive0 := Drive.blank, drive1 := Drive.blank, ports := [], pools := [],
    keys := [], stagedKey := 0, stagedIv := 0, sudon := Sudon.reset, bellows := Bellows.reset, cal := Calibration.reset,
    recorder := Recorder.reset, dbg := Debug.reset, boot := Boot.reset, msix := { enable := false, functionMask := false, pending := [] },
    out := [] }

end Sys2Proof.Machine
end

