-- ==== Sys2Proof/Machine/Regs.lean ====
section
/-! DEFINITION. The registers of the 0x3F00 blocks: their names, physical addresses, reset values and the field rule of a write
(R9 to R12, and the register maps of chapters 9 and 11 to 17). A register's value lives in `regs` under its address. -/

namespace Sys2Proof.Machine

/-- Every register of the 0x3F00 blocks. -/
inductive RName where
  -- Unit control (R428)
  | unitId | straps | resetCause | bootStat | fwVer | bar2Base | mbH2u (k : Nat) | mbH2uDb | mbH2uVec | mbU2h (k : Nat) | mbU2hDb
  | hostIrq | pba (k : Nat) | msixTable (k : Nat)
  -- Bellows and clocks (R391)
  | bwCtrl | bwStat | bucket | plan | planTiles | planPin | classmap | qhint (c : Nat) | epp (c : Nat) | purseCfg (g : Nat)
  | purse (g : Nat) | pmbCfg | pmbRead | corr | energy | tjHot | domctl (d : Nat) | temp (k : Nat) | clkStat
  -- Event recorder (R407)
  | recCtrl | recStat | recCursor | recHead | recSupp | recDrop | recVec | recWindow (k : Nat) | vdbgAuth
  -- Calibration store (R395, R396)
  | calPage (k : Nat) | calKey | calCmd | calStat | calStaging (k : Nat)
  -- Stencil gates (R360, R373)
  | gStart (g r : Nat) | gEnd (g r : Nat) | gAttr (g r : Nat) | gateSync (g : Nat) | gateStat (g : Nat) | denyCnt (g : Nat)
  | denyAddr (g : Nat) | denyInfo (g : Nat)
  -- Sudon (R343)
  | sdCtrl | sdAddr | sdAddrOvr | sdRing | sdLink (k : Nat) | sdMirror | sdCmd | sdVec (k : Nat) | takeBase | takeSize | takeStat
  | hoDesc (k : Nat) | hoStat | partBase (k : Nat) | partCtl (k : Nat) | sdReach (r : Nat) | sdCnt (k : Nat)
  -- Etcher and commit sequencer (R233)
  | etchCtrl | etchStat | durBase | durSize | jringLba | jringBlocks | imgLba | spillLba | fmtid | etchCmd | durableCsn | nextCsn
  | proofNum | proofCsn | jpos | tailBytes | mirrorTailBytes
  -- Root ports (R434)
  | rpCtrl (n : Nat) | rpStat (n : Nat)
  -- MACs (R329)
  | macCtrl (m : Nat) | macAddr (m : Nat) | macMtu (m : Nat) | rawBase (tx : Bool) (m : Nat) | rawLen (tx : Bool) (m : Nat)
  | rawTail (tx : Bool) (m : Nat) | rawHead (tx : Bool) (m : Nat) | macCnt (m k : Nat)
  -- Crypto (R307)
  | ksel | ksuite | keyReg (k : Nat) | ivReg (k : Nat) | kcmd
  -- Port engine (R326)
  | peCtrl | peVec (k : Nat) | lcfg (l : Nat) | lip0 (l : Nat) | lip1 (l : Nat) | lrange (l : Nat) | ldef (l : Nat) | lstat (l : Nat)
  | peCnt (k : Nat)
  -- Tile interrupt controllers (R287)
  | vcfg (tile v : Nat) | pend (tile k : Nat) | swset (tile : Nat)
  deriving DecidableEq, Repr

/-- Where the 0x3F00 blocks start (R29). -/
def mmioBase : Nat := 0x3F0000000000

/-- The physical address of a register (R29 and its block's map). -/
def RName.addr : RName → Nat
  | .unitId => mmioBase | .straps => mmioBase + 0x8 | .resetCause => mmioBase + 0x10 | .bootStat => mmioBase + 0x18
  | .fwVer => mmioBase + 0x20 | .bar2Base => mmioBase + 0x28 | .mbH2u k => mmioBase + 0x100 + 8 * k | .mbH2uDb => mmioBase + 0x140
  | .mbH2uVec => mmioBase + 0x148 | .mbU2h k => mmioBase + 0x180 + 8 * k | .mbU2hDb => mmioBase + 0x1C0 | .hostIrq => mmioBase + 0x200
  | .pba k => mmioBase + 0x4000 + 8 * k | .msixTable k => mmioBase + 0x8000 + 8 * k
  | .bwCtrl => mmioBase + 0x10000 | .bwStat => mmioBase + 0x10008 | .bucket => mmioBase + 0x10010 | .plan => mmioBase + 0x10018
  | .planTiles => mmioBase + 0x10020 | .planPin => mmioBase + 0x10028 | .classmap => mmioBase + 0x10030
  | .qhint c => mmioBase + 0x10040 + 8 * c | .epp c => mmioBase + 0x10060 + 8 * c | .purseCfg g => mmioBase + 0x10080 + 16 * g
  | .purse g => mmioBase + 0x10088 + 16 * g | .pmbCfg => mmioBase + 0x10180 | .pmbRead => mmioBase + 0x10188
  | .corr => mmioBase + 0x10190 | .energy => mmioBase + 0x10198 | .tjHot => mmioBase + 0x101A0
  | .domctl d => mmioBase + 0x10200 + 8 * d | .temp k => mmioBase + 0x10700 + 8 * k | .clkStat => mmioBase + 0x10800
  | .recCtrl => mmioBase + 0x20000 | .recStat => mmioBase + 0x20008 | .recCursor => mmioBase + 0x20010 | .recHead => mmioBase + 0x20018
  | .recSupp => mmioBase + 0x20020 | .recDrop => mmioBase + 0x20028 | .recVec => mmioBase + 0x20030
  | .recWindow k => mmioBase + 0x20040 + 8 * k | .vdbgAuth => mmioBase + 0x20100
  | .calPage k => mmioBase + 0x30000 + 8 * k | .calKey => mmioBase + 0x32000 | .calCmd => mmioBase + 0x32008
  | .calStat => mmioBase + 0x32010 | .calStaging k => mmioBase + 0x34000 + 8 * k
  | .gStart g r => mmioBase + 0x40000 + 0x1000 * g + 32 * r | .gEnd g r => mmioBase + 0x40008 + 0x1000 * g + 32 * r
  | .gAttr g r => mmioBase + 0x40010 + 0x1000 * g + 32 * r | .gateSync g => mmioBase + 0x40400 + 0x1000 * g
  | .gateStat g => mmioBase + 0x40408 + 0x1000 * g | .denyCnt g => mmioBase + 0x40410 + 0x1000 * g
  | .denyAddr g => mmioBase + 0x40418 + 0x1000 * g | .denyInfo g => mmioBase + 0x40420 + 0x1000 * g
  | .sdCtrl => mmioBase + 0x50000 | .sdAddr => mmioBase + 0x50008 | .sdAddrOvr => mmioBase + 0x50010 | .sdRing => mmioBase + 0x50018
  | .sdLink k => mmioBase + 0x50020 + 8 * k | .sdMirror => mmioBase + 0x50040 | .sdCmd => mmioBase + 0x50048
  | .sdVec k => mmioBase + 0x50050 + 8 * k | .takeBase => mmioBase + 0x50080 | .takeSize => mmioBase + 0x50088
  | .takeStat => mmioBase + 0x50090 | .hoDesc k => mmioBase + 0x500A0 + 8 * k | .hoStat => mmioBase + 0x500B0
  | .partBase k => mmioBase + 0x50100 + 16 * k | .partCtl k => mmioBase + 0x50108 + 16 * k | .sdReach r => mmioBase + 0x50200 + 8 * r
  | .sdCnt k => mmioBase + 0x50300 + 8 * k
  | .etchCtrl => mmioBase + 0x60000 | .etchStat => mmioBase + 0x60008 | .durBase => mmioBase + 0x60010 | .durSize => mmioBase + 0x60018
  | .jringLba => mmioBase + 0x60020 | .jringBlocks => mmioBase + 0x60028 | .imgLba => mmioBase + 0x60030
  | .spillLba => mmioBase + 0x60038 | .fmtid => mmioBase + 0x60040 | .etchCmd => mmioBase + 0x60048 | .durableCsn => mmioBase + 0x60050
  | .nextCsn => mmioBase + 0x60058 | .proofNum => mmioBase + 0x60060 | .proofCsn => mmioBase + 0x60068 | .jpos => mmioBase + 0x60070
  | .tailBytes => mmioBase + 0x60078 | .mirrorTailBytes => mmioBase + 0x60080
  | .rpCtrl n => mmioBase + 0x70000 + 0x1000 * n | .rpStat n => mmioBase + 0x70008 + 0x1000 * n
  | .macCtrl m => mmioBase + 0x80000 + 0x2000 * m | .macAddr m => mmioBase + 0x80008 + 0x2000 * m
  | .macMtu m => mmioBase + 0x80010 + 0x2000 * m
  | .rawBase tx m => mmioBase + (if tx then 0x80040 else 0x80020) + 0x2000 * m
  | .rawLen tx m => mmioBase + (if tx then 0x80048 else 0x80028) + 0x2000 * m
  | .rawTail tx m => mmioBase + (if tx then 0x80050 else 0x80030) + 0x2000 * m
  | .rawHead tx m => mmioBase + (if tx then 0x80058 else 0x80038) + 0x2000 * m
  | .macCnt m k => mmioBase + 0x80100 + 0x2000 * m + 8 * k
  | .ksel => mmioBase + 0x90000 | .ksuite => mmioBase + 0x90008 | .keyReg k => mmioBase + 0x90010 + 8 * k
  | .ivReg k => mmioBase + 0x90030 + 8 * k | .kcmd => mmioBase + 0x90040
  | .peCtrl => mmioBase + 0x100000 | .peVec k => mmioBase + 0x100020 + 8 * k | .lcfg l => mmioBase + 0x101000 + 64 * l
  | .lip0 l => mmioBase + 0x101008 + 64 * l | .lip1 l => mmioBase + 0x101010 + 64 * l | .lrange l => mmioBase + 0x101018 + 64 * l
  | .ldef l => mmioBase + 0x101020 + 64 * l | .lstat l => mmioBase + 0x101028 + 64 * l | .peCnt k => mmioBase + 0x102000 + 8 * k
  | .vcfg t v => mmioBase + 0x1008000 + 0x10000 * t + 8 * v | .pend t k => mmioBase + 0x1008800 + 0x10000 * t + 8 * k
  | .swset t => mmioBase + 0x1008820 + 0x10000 * t

/-- The register of the Unit control block at an 8-byte-aligned offset (R428). -/
def unitReg (o : Nat) : Option RName :=
  if o = 0 then some .unitId else if o = 8 then some .straps else if o = 0x10 then some .resetCause
  else if o = 0x18 then some .bootStat else if o = 0x20 then some .fwVer else if o = 0x28 then some .bar2Base
  else if 0x100 ≤ o ∧ o < 0x140 then some (.mbH2u ((o - 0x100) / 8)) else if o = 0x140 then some .mbH2uDb
  else if o = 0x148 then some .mbH2uVec else if 0x180 ≤ o ∧ o < 0x1C0 then some (.mbU2h ((o - 0x180) / 8))
  else if o = 0x1C0 then some .mbU2hDb else if o = 0x200 then some .hostIrq
  else if 0x4000 ≤ o ∧ o < 0x4100 then some (.pba ((o - 0x4000) / 8))
  else if 0x8000 ≤ o then some (.msixTable ((o - 0x8000) / 8)) else none

/-- The register of the Bellows block at an offset (R391). -/
def bellowsReg (o : Nat) : Option RName :=
  if o = 0 then some .bwCtrl else if o = 8 then some .bwStat else if o = 0x10 then some .bucket else if o = 0x18 then some .plan
  else if o = 0x20 then some .planTiles else if o = 0x28 then some .planPin else if o = 0x30 then some .classmap
  else if 0x48 ≤ o ∧ o < 0x60 then some (.qhint ((o - 0x40) / 8)) else if 0x60 ≤ o ∧ o < 0x80 then some (.epp ((o - 0x60) / 8))
  else if 0x80 ≤ o ∧ o < 0x180 then
    (if o % 16 = 0 then some (.purseCfg ((o - 0x80) / 16)) else some (.purse ((o - 0x80) / 16)))
  else if o = 0x180 then some .pmbCfg else if o = 0x188 then some .pmbRead else if o = 0x190 then some .corr
  else if o = 0x198 then some .energy else if o = 0x1A0 then some .tjHot
  else if 0x200 ≤ o ∧ o < 0x520 then some (.domctl ((o - 0x200) / 8))
  else if 0x700 ≤ o ∧ o < 0x7A0 then some (.temp ((o - 0x700) / 8)) else if o = 0x800 then some .clkStat else none

/-- The register of the recorder block at an offset (R407). -/
def recorderReg (o : Nat) : Option RName :=
  if o = 0 then some .recCtrl else if o = 8 then some .recStat else if o = 0x10 then some .recCursor
  else if o = 0x18 then some .recHead else if o = 0x20 then some .recSupp else if o = 0x28 then some .recDrop
  else if o = 0x30 then some .recVec else if 0x40 ≤ o ∧ o < 0x60 then some (.recWindow ((o - 0x40) / 8))
  else if o = 0x100 then some .vdbgAuth else none

/-- The register of the calibration block at an offset (R395, R396). -/
def calReg (o : Nat) : Option RName :=
  if o < 0x2000 then some (.calPage (o / 8)) else if o = 0x2000 then some .calKey else if o = 0x2008 then some .calCmd
  else if o = 0x2010 then some .calStat else if 0x4000 ≤ o ∧ o < 0x6000 then some (.calStaging ((o - 0x4000) / 8)) else none

/-- The register of a gate's block at an offset (R360, R373). -/
def gateReg (g o : Nat) : Option RName :=
  if o < 0x400 then
    (if o % 32 = 0 then some (.gStart g (o / 32)) else if o % 32 = 8 then some (.gEnd g (o / 32))
     else if o % 32 = 16 then some (.gAttr g (o / 32)) else none)
  else if o = 0x400 then some (.gateSync g) else if o = 0x408 then some (.gateStat g) else if o = 0x410 then some (.denyCnt g)
  else if o = 0x418 then some (.denyAddr g) else if o = 0x420 then some (.denyInfo g) else none

/-- The register of the Sudon block at an offset (R343). -/
def sudonReg (o : Nat) : Option RName :=
  if o = 0 then some .sdCtrl else if o = 8 then some .sdAddr else if o = 0x10 then some .sdAddrOvr else if o = 0x18 then some .sdRing
  else if 0x20 ≤ o ∧ o < 0x40 then some (.sdLink ((o - 0x20) / 8)) else if o = 0x40 then some .sdMirror
  else if o = 0x48 then some .sdCmd else if 0x50 ≤ o ∧ o < 0x70 then some (.sdVec ((o - 0x50) / 8))
  else if o = 0x80 then some .takeBase else if o = 0x88 then some .takeSize else if o = 0x90 then some .takeStat
  else if o = 0xA0 then some (.hoDesc 0) else if o = 0xA8 then some (.hoDesc 1) else if o = 0xB0 then some .hoStat
  else if 0x100 ≤ o ∧ o < 0x200 then
    (if o % 16 = 0 then some (.partBase ((o - 0x100) / 16)) else some (.partCtl ((o - 0x100) / 16)))
  else if 0x200 ≤ o ∧ o < 0x280 then some (.sdReach ((o - 0x200) / 8))
  else if 0x300 ≤ o ∧ o < 0x320 then some (.sdCnt ((o - 0x300) / 8)) else none

/-- The register of the Etcher block at an offset (R233). -/
def etcherReg (o : Nat) : Option RName :=
  if o = 0 then some .etchCtrl else if o = 8 then some .etchStat else if o = 0x10 then some .durBase else if o = 0x18 then some .durSize
  else if o = 0x20 then some .jringLba else if o = 0x28 then some .jringBlocks else if o = 0x30 then some .imgLba
  else if o = 0x38 then some .spillLba else if o = 0x40 then some .fmtid else if o = 0x48 then some .etchCmd
  else if o = 0x50 then some .durableCsn else if o = 0x58 then some .nextCsn else if o = 0x60 then some .proofNum
  else if o = 0x68 then some .proofCsn else if o = 0x70 then some .jpos else if o = 0x78 then some .tailBytes
  else if o = 0x80 then some .mirrorTailBytes else none

/-- The register of a MAC's block at an offset (R329). -/
def macReg (m o : Nat) : Option RName :=
  if o = 0 then some (.macCtrl m) else if o = 8 then some (.macAddr m) else if o = 0x10 then some (.macMtu m)
  else if o = 0x20 then some (.rawBase false m) else if o = 0x28 then some (.rawLen false m)
  else if o = 0x30 then some (.rawTail false m) else if o = 0x38 then some (.rawHead false m)
  else if o = 0x40 then some (.rawBase true m) else if o = 0x48 then some (.rawLen true m)
  else if o = 0x50 then some (.rawTail true m) else if o = 0x58 then some (.rawHead true m)
  else if 0x100 ≤ o ∧ o < 0x140 then some (.macCnt m ((o - 0x100) / 8)) else none

/-- The register of the crypto block at an offset (R307). -/
def cryptoReg (o : Nat) : Option RName :=
  if o = 0 then some .ksel else if o = 8 then some .ksuite else if 0x10 ≤ o ∧ o < 0x30 then some (.keyReg ((o - 0x10) / 8))
  else if 0x30 ≤ o ∧ o < 0x40 then some (.ivReg ((o - 0x30) / 8)) else if o = 0x40 then some .kcmd else none

/-- The register of the port engine block at an offset (R326). Listeners: 64 of them, R296. -/
def portReg (o : Nat) : Option RName :=
  if o = 0 then some .peCtrl else if 0x20 ≤ o ∧ o < 0x40 then some (.peVec ((o - 0x20) / 8))
  else if 0x1000 ≤ o ∧ o < 0x2000 then
    let l := (o - 0x1000) / 64
    let k := o % 64
    if k = 0 then some (.lcfg l) else if k = 8 then some (.lip0 l) else if k = 0x10 then some (.lip1 l)
    else if k = 0x18 then some (.lrange l) else if k = 0x20 then some (.ldef l) else if k = 0x28 then some (.lstat l) else none
  else if 0x2000 ≤ o ∧ o < 0x2038 then some (.peCnt ((o - 0x2000) / 8)) else none

/-- The register of a tile window at an offset (R287). -/
def tileReg (t o : Nat) : Option RName :=
  if 0x8000 ≤ o ∧ o < 0x8800 then some (.vcfg t ((o - 0x8000) / 8))
  else if 0x8800 ≤ o ∧ o < 0x8820 then some (.pend t ((o - 0x8800) / 8)) else if o = 0x8820 then some (.swset t) else none

/-- The register at an 8-byte-aligned physical address, none at an unassigned offset (R29, R33). -/
def regAt (a : Nat) : Option RName :=
  if a < mmioBase ∨ a % 8 ≠ 0 then none
  else
    let o := a - mmioBase
    if o < 0x10000 then unitReg o
    else if o < 0x20000 then bellowsReg (o - 0x10000)
    else if o < 0x30000 then recorderReg (o - 0x20000)
    else if o < 0x40000 then calReg (o - 0x30000)
    else if o < 0x4C000 then gateReg ((o - 0x40000) / 0x1000) ((o - 0x40000) % 0x1000)
    else if o < 0x50000 then none
    else if o < 0x60000 then sudonReg (o - 0x50000)
    else if o < 0x70000 then etcherReg (o - 0x60000)
    else if o < 0x80000 then
      let n := (o - 0x70000) / 0x1000
      let k := (o - 0x70000) % 0x1000
      if n > 1 then none else if k = 0 then some (.rpCtrl n) else if k = 8 then some (.rpStat n) else none
    else if o < 0x90000 then macReg ((o - 0x80000) / 0x2000) ((o - 0x80000) % 0x2000)
    else if o < 0xA0000 then cryptoReg (o - 0x90000)
    else if o < 0x100000 then none
    else if o < 0x200000 then portReg (o - 0x100000)
    else if o < 0x1000000 then none
    else if o < 0x1400000 then tileReg ((o - 0x1000000) / 0x10000) ((o - 0x1000000) % 0x10000)
    else none

/-- The top step code of the ordering code (R376). -/
def topStep (i20 : Bool) : Nat := if i20 then 2 else 3

/-- The reset value of a register (the Reset columns of its block's map). -/
def RName.reset (i20 mirrorEn : Bool) : RName → Word
  | .bwCtrl => BitVec.ofNat 64 (100 * 2 ^ 40 + 50 * 2 ^ 32 + 50 * 2 ^ 22 + 180 * 2 ^ 13 + 8 * 2 ^ 6 + topStep i20 * 4 + 1)
  | .plan => BitVec.ofNat 64 (64 * 2 ^ 16 + topStep i20)
  | .planTiles => 0xFFFFFFFFFFFFFFFF
  | .planPin => 1
  | .corr => 0x10000
  | .tjHot => if i20 then 105 else 95
  | .recCtrl => 0x400
  | .sdCtrl => BitVec.ofNat 64 (10 * 2 ^ 24 + 50 * 2 ^ 16 + 20 * 2 ^ 8 + 7)
  | .etchCtrl => BitVec.ofNat 64 (10 * 2 ^ 24 + 32 * 2 ^ 17 + 4 * 2 ^ 10 + (if mirrorEn then 0 else 256))
  | .etchStat => if mirrorEn then 0 else 0x20
  | .jringLba => 4096
  | .jringBlocks => 16777216
  | .imgLba => 16781312
  | .spillLba => 256
  | .nextCsn => 1
  | .rpCtrl _ => 0xB
  | .macMtu _ => 1500
  | .peCtrl => BitVec.ofNat 64 (64 * 2 ^ 40 + 64 * 2 ^ 32 + 8 * 2 ^ 24 + 1000 * 2 ^ 12 + 10 * 2 ^ 4)
  | .ldef _ => confReset
  | _ => 0

/-- A field of a register: its place and the values a write may give it. -/
structure Field where
  lo : Nat
  w : Nat
  legal : Nat → Bool := fun _ => true

/-- A write by the field rule: each listed field takes its new value if that is legal; every other bit keeps its old value (R10, R11). -/
def fieldWrite (old new : Word) : List Field → Word
  | [] => old
  | f :: r =>
    let v := bitsOf new f.lo f.w
    fieldWrite (if f.legal v then withBits old f.lo f.w v else old) new r

/-- The fields of a vector register: [14] EN, [13:8] tile, [7:0] vector. -/
def vecFields : List Field := [⟨14, 1, fun _ => true⟩, ⟨8, 6, fun _ => true⟩, ⟨0, 8, fun _ => true⟩]

/-- The fields of CONF and LDEF (R300). -/
def confFields : List Field :=
  [⟨16, 16, fun v => decide (16 ≤ v)⟩, ⟨8, 8, fun _ => true⟩, ⟨7, 1, fun _ => true⟩, ⟨6, 1, fun _ => true⟩, ⟨5, 1, fun _ => true⟩,
   ⟨0, 3, fun v => decide (v ≤ 4)⟩]

/-- The writable fields of a register whose write has no behaviour of its own beyond the field rule; none for RO, WO, W1C and special
ones. -/
def RName.fields (i20 : Bool) : RName → List Field
  | .bar2Base => [⟨36, 4, fun _ => true⟩]
  | .mbH2u _ => [⟨0, 64, fun _ => true⟩]
  | .mbU2h _ => [⟨0, 64, fun _ => true⟩]
  | .mbH2uVec => vecFields
  | .msixTable _ => [⟨0, 64, fun _ => true⟩]
  | .bwCtrl => [⟨48, 5, fun _ => true⟩, ⟨40, 8, fun v => decide (v ≠ 0)⟩, ⟨32, 8, fun v => decide (v ≠ 0)⟩,
      ⟨22, 10, fun v => decide (1 ≤ v ∧ v ≤ 1000)⟩, ⟨13, 9, fun v => decide (20 ≤ v ∧ v ≤ 250)⟩,
      ⟨6, 7, fun v => decide (1 ≤ v ∧ v ≤ 64)⟩, ⟨2, 2, fun v => decide (v ≤ 1 ∨ v = topStep i20)⟩, ⟨0, 1, fun _ => true⟩]
  | .planPin => [⟨0, 64, fun _ => true⟩]
  | .classmap => [⟨0, 32, fun _ => true⟩]
  | .qhint _ => [⟨0, 32, fun _ => true⟩]
  | .purseCfg _ => [⟨32, 32, fun _ => true⟩, ⟨0, 32, fun _ => true⟩]
  | .pmbCfg => [⟨0, 16, fun _ => true⟩]
  | .tjHot => [⟨0, 64, fun v => decide (60 ≤ v ∧ v ≤ if i20 then 105 else 95)⟩]
  | .domctl _ => [⟨0, 2, fun v => decide (v ≤ 2)⟩]
  | .recCtrl => [⟨16, 16, fun _ => true⟩, ⟨8, 4, fun _ => true⟩]
  | .recCursor => [⟨0, 10, fun _ => true⟩]
  | .recVec => vecFields
  | .gStart _ _ => [⟨0, 42, fun _ => true⟩]
  | .gEnd _ _ => [⟨0, 43, fun v => decide (v ≤ 0x40000000000)⟩]
  | .gAttr _ _ => [⟨16, 8, fun _ => true⟩, ⟨8, 1, fun _ => true⟩, ⟨4, 2, fun v => decide (v ≤ 2)⟩, ⟨1, 1, fun _ => true⟩,
      ⟨0, 1, fun _ => true⟩]
  | .sdCtrl => [⟨24, 8, fun v => decide (v ≠ 0)⟩, ⟨16, 8, fun _ => true⟩, ⟨8, 8, fun v => decide (20 ≤ v)⟩, ⟨0, 3, fun _ => true⟩]
  | .sdAddrOvr => [⟨15, 1, fun _ => true⟩, ⟨0, 10, fun _ => true⟩]
  | .sdMirror => [⟨32, 11, fun _ => true⟩]
  | .sdVec _ => vecFields
  | .takeBase => [⟨24, 22, fun _ => true⟩]
  | .takeSize => [⟨0, 64, fun _ => true⟩]
  | .hoDesc 0 => [⟨62, 2, fun v => decide (v ≤ 1)⟩, ⟨32, 10, fun _ => true⟩, ⟨0, 12, fun _ => true⟩]
  | .hoDesc _ => [⟨24, 22, fun _ => true⟩, ⟨4, 6, fun _ => true⟩, ⟨0, 4, fun _ => true⟩]
  | .partBase _ => [⟨24, 22, fun _ => true⟩]
  | .etchCtrl => [⟨24, 8, fun v => decide (v ≠ 0)⟩, ⟨17, 7, fun v => decide (1 ≤ v ∧ v ≤ 96)⟩,
      ⟨10, 7, fun v => decide (1 ≤ v ∧ v ≤ 64)⟩, ⟨8, 2, fun v => decide (v ≤ 1)⟩]
  | .durBase => [⟨24, 22, fun _ => true⟩]
  | .durSize => [⟨0, 64, fun v => decide (v % 2 ^ 24 = 0 ∧ v ≤ 2 ^ 38)⟩]
  | .jringLba => [⟨0, 64, fun _ => true⟩]
  | .jringBlocks => [⟨0, 64, fun v => decide (16384 ≤ v)⟩]
  | .imgLba => [⟨0, 64, fun _ => true⟩]
  | .spillLba => [⟨0, 64, fun _ => true⟩]
  | .fmtid => [⟨0, 64, fun _ => true⟩]
  | .rpCtrl _ => [⟨1, 3, fun v => decide (1 ≤ v ∧ v ≤ 5)⟩, ⟨0, 1, fun _ => true⟩]
  | .macCtrl _ => [⟨0, 2, fun _ => true⟩]
  | .macAddr _ => [⟨0, 48, fun _ => true⟩]
  | .macMtu _ => [⟨0, 64, fun v => decide (576 ≤ v ∧ v ≤ 9000)⟩]
  | .rawBase _ _ => [⟨4, 42, fun _ => true⟩]
  | .rawLen _ _ => [⟨0, 64, fun v => v == 16 || v == 32 || v == 64 || v == 128 || v == 256 || v == 512 || v == 1024 || v == 2048 || v == 4096⟩]
  | .rawTail _ _ => [⟨0, 64, fun _ => true⟩]
  | .ksel => [⟨0, 13, fun _ => true⟩]
  | .ksuite => [⟨0, 1, fun _ => true⟩]
  | .peCtrl => [⟨40, 8, fun _ => true⟩, ⟨32, 8, fun _ => true⟩, ⟨24, 8, fun v => decide (v ≠ 0)⟩, ⟨12, 12, fun v => decide (10 ≤ v)⟩,
      ⟨4, 8, fun _ => true⟩, ⟨0, 1, fun _ => true⟩]
  | .peVec _ => vecFields
  | .lcfg _ => [⟨32, 8, fun _ => true⟩, ⟨20, 12, fun _ => true⟩, ⟨19, 1, fun _ => true⟩, ⟨18, 1, fun _ => true⟩, ⟨17, 1, fun _ => true⟩,
      ⟨0, 16, fun _ => true⟩]
  | .lip0 _ => [⟨0, 64, fun _ => true⟩]
  | .lip1 _ => [⟨0, 64, fun _ => true⟩]
  | .lrange _ => [⟨32, 5, fun v => decide (12 ≤ v ∧ v ≤ 17)⟩, ⟨16, 12, fun _ => true⟩, ⟨0, 12, fun _ => true⟩]
  | .ldef _ => confFields
  | _ => []

/-- A register's reset value in this unit. -/
def State.resetOf (s : State) (r : RName) : Word := r.reset s.i20 s.straps.mirrorEn

/-- A register's value. -/
def State.rget (s : State) (r : RName) : Word := Map.get (s.resetOf r) s.regs r.addr

/-- Sets a register's value. -/
def State.rset (s : State) (r : RName) (v : Word) : State := { s with regs := Map.put (s.resetOf r) s.regs r.addr v }

/-- A field of a register, as a number. -/
def State.rfield (s : State) (r : RName) (lo w : Nat) : Nat := bitsOf (s.rget r) lo w

/-- Sets a field of a register. -/
def State.rsetField (s : State) (r : RName) (lo w x : Nat) : State := s.rset r (withBits (s.rget r) lo w x)

/-- Adds one to a 64-bit counter register, with wrap. -/
def State.rcount (s : State) (r : RName) : State := s.rset r (s.rget r + 1)

/-- The registers of a block, forgotten: each reads its reset value again. -/
def State.rclear (s : State) (lo hi : Nat) : State := { s with regs := s.regs.filter (fun p => decide (p.1 < lo ∨ hi ≤ p.1)) }

end Sys2Proof.Machine
end

