-- ==== Sys2Proof/Machine/Ops.lean ====
section
/-! DEFINITION. The named operations over the state: threads and their registers, tiles, memory granules, events and vectors. -/

namespace Sys2Proof.Machine

/-! ### Threads -/

/-- A thread's state (R61); a thread not listed is EMPTY. -/
def State.thr (s : State) (t : Tid) : Thread := Map.get Thread.reset s.threads t.toNat

def State.setThr (s : State) (t : Tid) (th : Thread) : State := { s with threads := Map.set s.threads t.toNat th }

def State.modThr (s : State) (t : Tid) (f : Thread → Thread) : State := s.setThr t (f (s.thr t))

/-- The tile of a thread (R8). -/
def tileOf (t : Tid) : Nat := t.toNat / 8

/-- A tile's state. -/
def State.tile (s : State) (n : Nat) : Tile := Map.get Tile.reset s.tiles n

def State.setTile (s : State) (n : Nat) (x : Tile) : State := { s with tiles := Map.set s.tiles n x }

/-- General register r; g0 reads as null (R35, R61). -/
def Thread.reg (th : Thread) (r : Reg) : Cap := if r = 0 then Cap.null else Map.get Cap.null th.regs r.toNat

/-- Writes general register r; a write to g0 is discarded (R63). A write leaves the register with good parity (R64). -/
def Thread.setReg (th : Thread) (r : Reg) (c : Cap) : Thread :=
  if r = 0 then th
  else { th with regs := Map.put Cap.null th.regs r.toNat c, parity := th.parity.filter (fun p => decide (p ≠ r.toNat)) }

/-- wr_int of R96. -/
def Thread.wrInt (th : Thread) (r : Reg) (w : Word) : Thread := th.setReg r (Cap.ofWord w)

/-- PCC moved by k bytes, the tag kept only within reach (R40, R103). -/
def Thread.advance (th : Thread) (k : Int) : Thread := { th with pcc := th.pcc.moveCursor (th.pcc.ea k) }

/-- A completed instruction that wrote `dests` leaves the loads of those registers that issued before stamp k without a destination
(R16, R63, R67). -/
def Thread.dropOlder (th : Thread) (k : Nat) (dests : List Reg) : Thread :=
  { th with outs := th.outs.map (fun o => if decide (o.stamp < k) && dests.contains o.rd then { o with rd := 0 } else o) }

/-- TROOT of the current world in effect (R250). -/
def Thread.troot (th : Thread) : World → Word
  | .main => th.trootM
  | .vault => th.trootV

/-- EVEC of a world (R271). -/
def Thread.evec (th : Thread) : World → Cap
  | .main => th.evecM
  | .vault => th.evecV
/-- STK of a world (R271). -/
def Thread.stk (th : Thread) : World → Cap
  | .main => th.stkM
  | .vault => th.stkV
/-- ESTK of a world (R271). -/
def Thread.estk (th : Thread) : World → Cap
  | .main => th.estkM
  | .vault => th.estkV

/-- The status word of a plate (R214), with a given current depth. -/
def Plate.status (p : Plate) (depth : Nat) : Word :=
  BitVec.ofNat 64 (p.code.toNat * 2 ^ 32 + (if p.shared then 2 ^ 17 else 0) + (if p.wasDefer then 2 ^ 16 else 0)
    + (if p.retry then 2 ^ 15 else 0) + p.adepth * 2 ^ 9 + depth * 2 ^ 4 + p.cause)

/-- A plate in the LIVE or COMMITTING phase (R189). -/
def Plate.abortable (p : Plate) : Bool := decide (p.phase = .live) || decide (p.phase = .committing)

/-- The physical address of port n's entry, where its receive-cursor granule stands (R298). -/
def portEntry (n : Nat) : Nat := 0x3E0001000000 + 512 * n

/-- The line of port n's receive cursor (R194). -/
def cursorLine (n : Nat) : Nat := portEntry n / 64

/-- Lines of the write set, those of receive cursors among them (R193, R194, R202). -/
def Plate.writeLines (p : Plate) : List Nat := p.writes.map (fun w => w.1 / 4) ++ p.consumed.map (fun c => cursorLine c.1)

/-- The line is in the plate's footprint (R193). -/
def Plate.footprint (p : Plate) (line : Nat) : Bool := p.reads.contains line || p.writeLines.contains line

/-- Every thread that is listed, with its number. -/
def State.threadList (s : State) : List Nat := s.threads.map (·.1)

/-! ### Free values -/

/-- A fresh free value of 64 bits, and the counter's advance (log entry 4). -/
def State.freeWord (s : State) : State × Word := ({ s with fresh := s.fresh + 1 }, Config.freeWord s.fresh)

/-! ### Little-endian bytes (R6) -/

/-- n bytes of a value, the lowest first. -/
def leBytes : Nat → Nat → List Byte
  | 0, _ => []
  | n + 1, v => BitVec.ofNat 8 v :: leBytes n (v / 256)

/-- The value of bytes, the lowest first. -/
def leValue : List Byte → Nat
  | [] => 0
  | b :: r => b.toNat + 256 * leValue r

/-- The value of bytes, the highest first. -/
def beValue (l : List Byte) : Nat := leValue l.reverse

/-- n bytes of a value, the highest first. -/
def beBytes (n v : Nat) : List Byte := (leBytes n v).reverse

/-- Bytes off to off + n - 1 of a list, zero beyond its end. -/
def sliceBytes (l : List Byte) (off n : Nat) : List Byte :=
  let x := (l.drop off).take n
  x ++ List.replicate (n - x.length) 0

/-! ### Memory: bytes, granules, lines (R8, R49) -/

/-- The byte at a physical address; a byte not listed reads 0 (R59). -/
def State.byteAt (s : State) (a : Nat) : Byte := Map.get 0 s.mem a

/-- Bytes at a physical address. -/
def bytesAt (m : List Host.Cell) (a : Nat) : Nat → List Byte
  | 0 => []
  | n + 1 => Map.get 0 m a :: bytesAt m (a + 1) n

/-- Writes bytes, in canonical form. -/
def putBytes (m : List Host.Cell) (a : Nat) : List Byte → List Host.Cell
  | [] => m
  | b :: r => putBytes (Map.put 0 m a b) (a + 1) r

/-- A memory in canonical form: rising addresses, no listed zero. -/
def Memory.wf (m : List Host.Cell) : Bool := Map.wf (0 : Byte) m

/-- The tag and colour of a granule that nothing has changed: tag 0, colour 15 (R59). -/
def granDefault : Bool × BitVec 4 := (false, 15)

/-- A granule with its tag and colour (R49). -/
def State.granuleAt (s : State) (g : Nat) : Granule :=
  let tc := Map.get granDefault s.gran g
  { data := BitVec.ofNat 128 (leValue (bytesAt s.mem (16 * g) 16)), tag := tc.1, colour := tc.2 }

/-- Writes a granule whole. -/
def State.setGranule (s : State) (g : Nat) (x : Granule) : State :=
  { s with mem := putBytes s.mem (16 * g) (leBytes 16 x.data.toNat), gran := Map.put granDefault s.gran g (x.tag, x.colour) }

/-- Bytes off to off + n - 1 of a granule, as a value. -/
def granBytes (x : Granule) (off n : Nat) : Nat := (x.data.toNat / 256 ^ off) % 256 ^ n

/-- The granule as a register value. -/
def granCap (x : Granule) : Cap := ⟨x.data, x.tag⟩

/-- One granule event (R55, R56). A data store clears the tag. -/
def granApply (x : Granule) : GWrite → Granule
  | .bytes a d => { x with data := withField x.data (8 * (a % 16)) (8 * d.length) (leValue d), tag := false }
  | .cap _ c => { x with data := c.bits, tag := c.tag }
  | .paint _ k => { data := 0, tag := false, colour := k }

/-- The granule that a write touches. -/
def GWrite.granule : GWrite → Nat
  | .bytes a _ => a / 16
  | .cap g _ => g
  | .paint g _ => g

/-- The line of a granule (R8). -/
def lineOf (g : Nat) : Nat := g / 4

/-- Applies one granule event to memory. -/
def State.applyWrite (s : State) (w : GWrite) : State := s.setGranule w.granule (granApply (s.granuleAt w.granule) w)

/-- Applies granule events in order. -/
def State.applyWrites (s : State) : List GWrite → State
  | [] => s
  | w :: r => (s.applyWrite w).applyWrites r

/-- The granule events of a byte store at a physical address: one, or two across a granule boundary (R112). -/
def splitWrite (a : Nat) (d : List Byte) : List GWrite :=
  let room := 16 - a % 16
  if d.length ≤ room then [.bytes a d] else [.bytes a (d.take room), .bytes (a + room) (d.drop room)]

/-- Segments (address, length) of an access, split at granule boundaries (R112). -/
def splitAccess (a n : Nat) : List (Nat × Nat) :=
  let room := 16 - a % 16
  if n ≤ room then [(a, n)] else [(a, room), (a + room, n - room)]

/-! ### The physical map (R29, R455) -/

/-- What lies at a physical address. -/
inductive Target where
  | dram (controller : Nat) | above | journal | portState | mmio | reserved
  deriving DecidableEq, Repr

/-- The controller whose range holds address a, given the range's start (R455). -/
def findChannel (s : State) (a : Nat) : Nat → Nat → Nat → Option Nat
  | 0, _, _ => none
  | k + 1, n, start =>
    let c := Map.get Channel.reset s.channels n
    if c.failed = none ∧ start ≤ a ∧ a < start + c.bytes then some n
    else findChannel s a k (n + 1) (if c.failed = none then start + c.bytes else start)

/-- The installed capacity (R455). -/
def State.installed (s : State) : Nat :=
  s.channels.foldl (fun acc p => if p.2.failed = none then acc + p.2.bytes else acc) 0

/-- The highest-numbered usable channel, whose gate R30 names. -/
def State.lastChannel (s : State) : Nat :=
  s.channels.foldl (fun acc p => if p.2.failed = none ∧ p.2.bytes ≠ 0 ∧ acc ≤ p.1 then p.1 else acc) 0

/-- An offset from 0x3F00_0000_0000 lies in a block that R29 lists. -/
def inBlock (o : Nat) : Bool :=
  decide (o < 0x4C000) || (decide (0x50000 ≤ o) && decide (o < 0xA0000)) || (decide (0x100000 ≤ o) && decide (o < 0x200000)) ||
    (decide (0x1000000 ≤ o) && decide (o < 0x1400000)) || (decide (0x2000000 ≤ o) && decide (o < 0x2080000))

/-- The target of a physical address. -/
def State.target (s : State) (a : Nat) : Target :=
  if a < 0x10000000000 then
    match findChannel s a 8 0 0 with
    | some n => .dram n
    | none => .above
  else if 0x3E0000000000 ≤ a ∧ a < 0x3E0001000000 then .journal
  else if 0x3E0001000000 ≤ a ∧ a < 0x3E0001200000 then .portState
  else if 0x3F0000000000 ≤ a ∧ inBlock (a - 0x3F0000000000) then .mmio
  else .reserved

/-- Whether a is installed DRAM. -/
def State.isDram (s : State) (a : Nat) : Bool :=
  match s.target a with
  | .dram _ => true
  | _ => false

/-- Whether a physical address lies in the Durable area (R166). -/
def State.isDurable (s : State) (a : Nat) : Bool :=
  decide ((s.rget .durBase).toNat ≤ a ∧ a < (s.rget .durBase).toNat + (s.rget .durSize).toNat)

/-- The gate of a physical address (R359). -/
def State.gateOf (s : State) (a : Nat) : Option Nat :=
  match s.target a with
  | .dram n => some n
  | .above => none
  | .journal => some 8
  | .portState => some 9
  | .mmio => some 10
  | .reserved => none

/-! ### Masters (R365) -/

/-- The identity code of a master (R365). -/
def masterCode : Master → Nat
  | .tile _ => 0
  | .portdma => 1
  | .etcher => 2
  | .service => 3
  | .host => 4
  | .debug => 5
  | .sudon => 6

end Sys2Proof.Machine
end

