-- ==== Sys2Proof/Machine/Events.lean ====
section
/-! DEFINITION. Events and the recorder's admission (R13, R401 to R406), MSI-X vectors (R433), interrupt vectors (R287 to R289), and the
waking of gated tiles (R380). -/

namespace Sys2Proof.Machine

/-! ### MSI-X (R433) -/

/-- Whether vector v cannot be sent: Enable clear, Function Mask set, or its Mask bit set. -/
def State.msixHeld (s : State) (v : Nat) : Bool :=
  !s.msix.enable || s.msix.functionMask || (s.rget (.msixTable (2 * v + 1))).getLsbD 32

/-- Inserts into a rising list without repeats. -/
def insertNat (k : Nat) : List Nat → List Nat
  | [] => [k]
  | i :: r => if k < i then k :: i :: r else if i = k then i :: r else i :: insertNat k r

/-- Raises MSI-X vector v (R433): sent, or pending while it cannot be sent. -/
def State.raiseMsix (s : State) (v : Nat) : State :=
  if s.msixHeld v then { s with msix := { s.msix with pending := insertNat v s.msix.pending } }
  else { s with out := s.out ++ [.msix v] }

/-- Sends the pending vectors that can be sent now (R433). -/
def sendPending (s : State) : List Nat → State
  | [] => s
  | v :: r =>
    if s.msixHeld v then sendPending s r
    else sendPending { s with msix := { s.msix with pending := s.msix.pending.filter (fun x => decide (x ≠ v)) },
                              out := s.out ++ [.msix v] } r

/-! ### Events -/

/-- A payload of items (width, value), 18 bytes at most (R401, R404). -/
def payloadBytes : List (Nat × Nat) → List Byte
  | [] => []
  | (w, v) :: r => leBytes w v ++ payloadBytes r

/-- The MSI-X vector that an event raises (R433). -/
def eventMsix (code : Nat) : Option Nat :=
  if code = 0x0801 then some 2 else if code = 0x0805 ∨ code = 0x0806 then some 3
  else if code = 0x0203 ∨ code = 0x0208 then some 5 else none

/-- Raises an event: the rate limit of R406, then the queue of R405. -/
def State.event (s : State) (code cls inst : Nat) (items : List (Nat × Nat)) : State :=
  let s := match eventMsix code with
    | some v => s.raiseMsix v
    | none => s
  let r := s.recorder
  let rate := s.rfield .recCtrl 8 4
  let n := Map.get 0 r.admitted code
  if code ≠ 0x0100 ∧ rate ≠ 0 ∧ rate ≤ n then
    { s.rcount .recSupp with recorder := { r with suppressed := Map.put 0 r.suppressed code (Map.get 0 r.suppressed code + 1) } }
  else
    let r := { r with admitted := Map.put 0 r.admitted code (n + 1) }
    if r.queue.length ≥ 64 then { s.rcount .recDrop with recorder := r }
    else { s with recorder := { r with queue := r.queue ++
      [{ code := BitVec.ofNat 16 code, source := BitVec.ofNat 16 (cls * 4096 + inst % 4096), payload := sliceBytes (payloadBytes items) 0 18 }] } }

/-- An access to a reserved or uninstalled address (R30): event 0x0404 with the SOURCE that R30 gives. -/
def State.reservedEvent (s : State) (m : Master) (a : Nat) : State :=
  s.event 0x0404 3 (if a < 0x10000000000 then s.lastChannel else 10) [(1, masterCode m), (8, a)]

/-! ### Interrupt vectors (R287 to R289) -/

/-- VCFG fields (R288). -/
def vcfgWorld (w : Word) : World := if w.getLsbD 11 then .vault else .main
def vcfgThread (w : Word) : Nat := bitsOf w 8 3
def vcfgPrio (w : Word) : BitVec 4 := BitVec.ofNat 4 (bitsOf w 4 4)
def vcfgEn (w : Word) : Bool := w.getLsbD 0

/-- A pending vector v of t's tile is due for t (R289). -/
def State.isDue (s : State) (t : Tid) (v : Nat) : Bool :=
  let w := s.rget (.vcfg (tileOf t) v)
  let th := s.thr t
  vcfgEn w && decide (vcfgThread w = t.toNat % 8) && decide (vcfgWorld w = th.world) && decide (th.ipl < vcfgPrio w)

/-- The vectors due for t (R289). -/
def State.dueVectors (s : State) (t : Tid) : List Nat := (s.tile (tileOf t)).pend.filter (fun v => s.isDue t v)

/-- Of two vectors of a tile, the one delivered first: higher PRIO, then lower number (R289). -/
def State.betterVector (s : State) (n a b : Nat) : Nat :=
  let pa := vcfgPrio (s.rget (.vcfg n a))
  let pb := vcfgPrio (s.rget (.vcfg n b))
  if pb < pa then a else if pa < pb then b else if a ≤ b then a else b

/-- The vector delivered to t next (R289). -/
def State.dueVector (s : State) (t : Tid) : Option Nat :=
  match s.dueVectors t with
  | [] => none
  | v :: r => some (r.foldl (fun acc x => s.betterVector (tileOf t) acc x) v)

/-! ### Power states of tiles (R379, R380) -/

/-- A domain's power state (R379). -/
def State.power (s : State) (d : Nat) : Power := Map.get Power.active s.bellows.domains d

def State.setPower (s : State) (d : Nat) (p : Power) : State :=
  { s with bellows := { s.bellows with domains := Map.put Power.active s.bellows.domains d p } }

/-- 64-byte blocks that n bytes take. -/
def blocks64 (n : Nat) : Nat := (n + 63) / 64

/-- Events of A2 and A3 in a domain (R382). -/
def State.active (s : State) (d a2 a3 : Nat) : State :=
  let e := Map.get (0, 0) s.bellows.events d
  { s with bellows := { s.bellows with events := Map.put (0, 0) s.bellows.events d (e.1 + a2, e.2 + a3) } }

/-- A record of n bytes at the crypto engine of a key slot, which leaves RETENTION for it (R379, R382). -/
def State.cryptoRecord (s : State) (slot n : Nat) : State :=
  let d := if Config.cryptoEngine slot then 98 else 97
  let s := if s.power d = .retention then s.setPower d .waking else s
  s.active d 1 (blocks64 n)

/-- A clock-gated tile starts to wake (R380). -/
def State.wakeGated (s : State) (n : Nat) : State := if s.power n = .gated then s.setPower n .waking else s

/-- Sets a vector pending; a vector that becomes due wakes a gated tile (R288, R380). -/
def State.raiseVector (s : State) (n v : Nat) : State :=
  let x := s.tile n
  let s := s.setTile n { x with pend := insertNat v x.pend }
  let t : Tid := BitVec.ofNat 9 (8 * n + vcfgThread (s.rget (.vcfg n v)))
  if s.isDue t v then s.wakeGated n else s

/-- Raises the vector that a register with [14] EN, [13:8] tile, [7:0] vector names. -/
def State.raiseVecReg (s : State) (r : RName) : State :=
  let w := s.rget r
  if w.getLsbD 14 then s.raiseVector (bitsOf w 8 6) (bitsOf w 0 8) else s

/-- A thread becomes READY; a gated tile starts to wake (R65, R380). -/
def State.makeReady (s : State) (t : Tid) : State := (s.modThr t (fun th => { th with st := .ready })).wakeGated (tileOf t)

/-- The tile issues: it is not stopped, and its domain is ACTIVE (R23, R379). -/
def State.tileRuns (s : State) (n : Nat) : Bool := !s.halted && decide (s.power n = .active)

/-! ### Instruction boundaries -/

/-- A thread that a stop request or a step holds stops at the instruction boundary (R413). -/
def State.boundary (s : State) (t : Tid) : State :=
  let th := s.thr t
  if (th.stepping || th.stopReq) && decide (th.st = .ready) then
    s.modThr t (fun th => { th with st := .stopped, stepping := false, stopReq := false })
  else s

/-- A WAITING instruction completes: PCC moves past it and the thread is READY (R65, R116). -/
def State.complete (s : State) (t : Tid) : State :=
  ((s.modThr t (fun th => { th.advance 4 with st := .ready })).wakeGated (tileOf t)).boundary t

/-! ### Unit status -/

/-- BOOT_STAT.PHASE and REASON (R429); a change of PHASE raises MSI-X vector 0 (R433). -/
def State.setPhase (s : State) (p : Nat) : State :=
  if s.rfield .bootStat 0 4 = p then s else (s.rsetField .bootStat 0 4 p).raiseMsix 0

end Sys2Proof.Machine
end

