-- ==== Sys2Proof/Machine/Chain.lean ====
section
/-! DEFINITION. The Sudon links and routes: which link a message takes, and what becomes of one that cannot go on (R333, R337, R338, R343). -/

namespace Sys2Proof.Machine

/-- A link's number in SD_LINK and in events (R343). -/
def linkNo : Link → Nat
  | .west => 0
  | .east => 1
  | .crossN => 2
  | .crossS => 3

/-- Its lanes (R333). -/
def linkLanes : Link → Nat
  | .west => 4
  | .east => 4
  | _ => 2

/-- The link that a message goes on through when it came in by l. -/
def opposite : Link → Link
  | .west => .east
  | .east => .west
  | .crossN => .crossS
  | .crossS => .crossN

/-- SD_LINK.state is up. -/
def State.linkUp (s : State) (l : Link) : Bool := decide (s.rfield (.sdLink (linkNo l)) 0 2 = 2)

/-- This unit's address, 0 until it has one (R337). -/
def State.unitAddr (s : State) : UnitAddr := BitVec.ofNat 10 (s.rfield .sdAddr 0 10)

/-- SD_ADDR.VALID and CLOSED. -/
def State.hasAddr (s : State) : Bool := (s.rget .sdAddr).getLsbD 15
def State.ringClosed (s : State) : Bool := (s.rget .sdAddr).getLsbD 14

/-- The position of a unit in a list. -/
def posIndex (p : BitVec 6) : List (BitVec 6) → Option Nat
  | [] => none
  | q :: r => if p = q then some 0 else (posIndex p r).map (· + 1)

/-- A unit address from ring and position. -/
def addrOf (ring : BitVec 4) (p : BitVec 6) : UnitAddr := ring ++ p

/-- Ring and position of an address. -/
def ringOf (u : UnitAddr) : BitVec 4 := BitVec.ofNat 4 (u.toNat / 64)
def posOf (u : UnitAddr) : BitVec 6 := BitVec.ofNat 6 (u.toNat % 64)

/-- The direction within the own ring (R338): fewer hops in a closed ring, EAST on a tie; the only direction in an open chain. -/
def State.ringLink (s : State) (q : BitVec 6) : Option Link :=
  match posIndex (posOf s.unitAddr) s.sudon.order, posIndex q s.sudon.order with
  | some i, some j =>
    let n := s.sudon.order.length
    if s.ringClosed then (if (j + n - i) % n ≤ (i + n - j) % n then some .east else some .west)
    else if i < j then some .east else some .west
  | _, _ => none

/-- The next link of the route to an address (R338). -/
def State.nextLink (s : State) (u : UnitAddr) : Option Link :=
  if posOf u ≠ posOf s.unitAddr then s.ringLink (posOf u)
  else if (ringOf s.unitAddr).toNat < (ringOf u).toNat then some .crossN
  else if (ringOf u).toNat < (ringOf s.unitAddr).toNat then some .crossS
  else none

/-! ### Sending (R334, R338) -/

/-- A link's flit state. -/
def State.link (s : State) (l : Link) : LinkState := Map.get LinkState.reset s.sudon.links (linkNo l)

def State.modLink (s : State) (l : Link) (f : LinkState → LinkState) : State :=
  { s with sudon := { s.sudon with links := Map.put LinkState.reset s.sudon.links (linkNo l) (f (s.link l)) } }

/-- The channel of a message (R334, R339, R347, R348): 0 CONTROL, 1 MIRROR, 2 TRANSFER. -/
def Output.channel : Output → Nat
  | .mirror _ _ | .ack _ _ | .drainedReport _ => 1
  | .tailRequest .. | .tailAnswer .. | .reserve .. | .reserveAnswer .. | .transfer .. | .handoverAck .. | .forwarded .. => 2
  | _ => 0

/-- The power domain of a link (R378). -/
def sudonDomain : Link → Nat
  | .west => 92
  | .east => 93
  | _ => 94

/-- Flits leave while their channel holds credits (R334). -/
def LinkState.pump (x : LinkState) : LinkState :=
  let sent := (x.queued.zip x.credits).map (fun (c : Nat × Nat) => min c.1 c.2)
  { x with queued := (x.queued.zip sent).map (fun (c : Nat × Nat) => c.1 - c.2), credits := (x.credits.zip sent).map (fun (c : Nat × Nat) => c.1 - c.2) }

/-- A link's waiting flits leave as credits allow; Bellows counts them as sent (R334, R382). -/
def State.pumpLink (s : State) (l : Link) : State :=
  let x := s.link l
  (s.modLink l LinkState.pump).active (sudonDomain l) (x.queued.sum - x.pump.queued.sum) 0

/-- n more flits wait on a channel. -/
def LinkState.enqueue (x : LinkState) (ch n : Nat) : LinkState := { x with queued := x.queued.set ch (x.queued.getD ch 0 + n) }

/-- The flits of a message, whose number the spec does not give, leave on a link as credits allow, or wait (R334). -/
def State.queueFlits (s : State) (l : Link) (o : Output) : State :=
  (s.modLink l (fun x => x.enqueue o.channel (1 + Config.moreFlits o.channel s.out.length))).pumpLink l

/-- A message goes to a link. -/
def State.linkOut (s : State) (l : Link) (o : Output) : State := State.queueFlits { s with out := s.out ++ [o] } l o

/-- A message for a unit leaves, or is dropped at a down link or for want of a route (R338). -/
def State.chainOut (s : State) (u : UnitAddr) (o : Output) : State :=
  match s.nextLink u with
  | some l => if s.linkUp l then s.linkOut l o else s.rcount (.sdCnt 2)
  | none => s.rcount (.sdCnt 2)

/-- The neighbour on link k (R343). -/
def State.neighbour (s : State) (k : Nat) : Option UnitAddr :=
  let w := s.rget (.sdLink k)
  if w.getLsbD 26 then some (BitVec.ofNat 10 (bitsOf w 16 10)) else none

/-- Sets or clears the neighbour on link k. -/
def State.setNeighbour (s : State) (k : Nat) (u : Option UnitAddr) : State :=
  match u with
  | some a => s.rsetField (.sdLink k) 16 11 (a.toNat + 1024)
  | none => s.rsetField (.sdLink k) 16 11 0

/-- Whether SD_REACH shows a unit reachable. -/
def State.reaches (s : State) (u : UnitAddr) : Bool := (s.rget (.sdReach (u.toNat / 64))).getLsbD (u.toNat % 64)

/-- Sets or clears a bit of SD_REACH. -/
def State.setReach (s : State) (u : UnitAddr) (b : Bool) : State := s.rsetField (.sdReach (u.toNat / 64)) (u.toNat % 64) 1 (if b then 1 else 0)

end Sys2Proof.Machine
end

