-- ==== Sys2Proof/Machine/Crc.lean ====
section
/-! DEFINITION. The checksums that the spec names: CRC-32C of records and drive blocks (R218), CRC-32 of recorder slots, CRC-64 of flits
(R334). -/

namespace Sys2Proof.Machine

/-- n steps of a reflected 32-bit CRC. -/
def crcSteps (poly : BitVec 32) : Nat → BitVec 32 → BitVec 32
  | 0, c => c
  | n + 1, c => crcSteps poly n (if c.getLsbD 0 then (c >>> 1) ^^^ poly else c >>> 1)

/-- A reflected 32-bit CRC over bytes, lowest address first, from a register value. -/
def crcRun (poly : BitVec 32) : BitVec 32 → List Byte → BitVec 32
  | c, [] => c
  | c, b :: r => crcRun poly (crcSteps poly 8 (c ^^^ b.setWidth 32)) r

/-- CRC-32C: polynomial 0x1EDC6F41 reflected, initial value all ones, final value complemented (R218). -/
def crc32c (l : List Byte) : BitVec 32 := ~~~(crcRun 0x82F63B78 0xFFFFFFFF l)

/-- CRC-32 of IEEE 802.3: polynomial 0x04C11DB7 reflected, initial value all ones, final value complemented. -/
def crc32 (l : List Byte) : BitVec 32 := ~~~(crcRun 0xEDB88320 0xFFFFFFFF l)

/-- n steps of CRC-64 (ECMA-182), most significant bit first. -/
def crc64Steps : Nat → BitVec 64 → BitVec 64
  | 0, c => c
  | n + 1, c => crc64Steps n (if c.getLsbD 63 then (c <<< 1) ^^^ 0x42F0E1EBA9EA3693 else c <<< 1)

/-- CRC-64 with the ECMA-182 polynomial (R334): initial value 0 and no complement, which the spec leaves open. -/
def crc64 : BitVec 64 → List Byte → BitVec 64
  | c, [] => c
  | c, b :: r => crc64 (crc64Steps 8 (c ^^^ (b.setWidth 64 <<< 56))) r

end Sys2Proof.Machine
end

