-- ==== Sys2Proof/Machine/DriveAreas.lean ====
section
/-! DEFINITION. The layout of a drive: area headers, proof markers, spill header and image, by block and byte (R227 to R231, R456). A drive holds
bytes under their address in the namespace, 4,096 × LBA + offset. -/

namespace Sys2Proof.Machine

/-- The first byte of a block (R227). -/
def lbaByte (lba : Nat) : Nat := 4096 * lba

/-- Bytes that hold nothing from lo on, n of them (Write Zeroes). -/
def zeroBytes (m : List Host.Cell) (lo n : Nat) : List Host.Cell := m.filter (fun c => decide (c.1 < lo) || decide (lo + n ≤ c.1))

/-- A block with these first bytes, zero bytes behind them, and at offset `at_` the CRC-32C of what stands before. -/
def putBlock (m : List Host.Cell) (lba at_ : Nat) (head : List Byte) : List Host.Cell :=
  let crc := crc32c (head ++ List.replicate (at_ - head.length) 0)
  putBytes (putBytes (zeroBytes m (lbaByte lba) 4096) (lbaByte lba) head) (lbaByte lba + at_) (leBytes 4 crc.toNat)

/-- A little-endian field of a block. -/
def blockField (m : List Host.Cell) (lba off n : Nat) : Nat := leValue (bytesAt m (lbaByte lba + off) n)

/-- The CRC-32C at offset `at_` of a block is that of the bytes before it. -/
def blockOk (m : List Host.Cell) (lba at_ : Nat) : Bool :=
  decide (blockField m lba at_ 4 = (crc32c (bytesAt m (lbaByte lba) at_)).toNat)

/-! ### Area header (R228) -/

/-- The bytes of an area header before its zero bytes. -/
def AreaHeader.bytes (h : AreaHeader) : List Byte :=
  leBytes 8 0x54543634 ++ leBytes 8 h.fmtid.toNat ++ leBytes 8 h.unit.toNat ++ leBytes 8 h.durBase ++ leBytes 8 h.durSize ++ leBytes 8 h.spillLba
    ++ leBytes 8 h.jringLba ++ leBytes 8 h.jringBlocks ++ leBytes 8 h.imgLba

/-- Writes an area header to a block. -/
def Drive.putHeader (d : Drive) (lba : Nat) (h : AreaHeader) : Drive := { d with cells := putBlock d.cells lba 4092 h.bytes }

/-- The area header in a block, when the block is valid. -/
def Drive.headerAt (d : Drive) (lba : Nat) : Option AreaHeader :=
  let f := blockField d.cells lba
  if f 0 4 = 0x54543634 ∧ blockOk d.cells lba 4092 then
    some { fmtid := BitVec.ofNat 64 (f 8 8), unit := BitVec.ofNat 10 (f 16 2), durBase := f 24 8, durSize := f 32 8, spillLba := f 40 8,
           jringLba := f 48 8, jringBlocks := f 56 8, imgLba := f 64 8 }
  else none

/-- The area header at LBA 0, or at LBA 1 if LBA 0 is not valid (R240). -/
def Drive.header (d : Drive) : Option AreaHeader :=
  match d.headerAt 0 with
  | some h => some h
  | none => d.headerAt 1

/-! ### Proof markers (R228, R231) -/

def Marker.bytes (k : Marker) : List Byte :=
  leBytes 8 k.proof ++ leBytes 8 k.scsn ++ leBytes 8 k.jpos ++ leBytes 8 k.fmtid.toNat ++ leBytes 8 k.unit.toNat ++ leBytes 8 k.durSize

/-- The marker of proof p goes to LBA 16 + (p mod 16). -/
def Drive.putMarker (d : Drive) (k : Marker) : Drive := { d with cells := putBlock d.cells (16 + k.proof % 16) 60 k.bytes }

/-- The marker in a slot, when it is valid. -/
def Drive.markerAt (d : Drive) (slot : Nat) : Option Marker :=
  let f := blockField d.cells (16 + slot)
  if blockOk d.cells (16 + slot) 60 then
    some { proof := f 0 8, scsn := f 8 8, jpos := f 16 8, fmtid := BitVec.ofNat 64 (f 24 8), unit := BitVec.ofNat 10 (f 32 2), durSize := f 40 8 }
  else none

/-- The marker with the higher PROOF of two. -/
def laterMarker : Option Marker → Option Marker → Option Marker
  | none, y => y
  | some x, none => some x
  | some x, some y => if x.proof ≤ y.proof then some y else some x

/-- The valid marker with the highest PROOF among those whose FMTID is the header's (R240). -/
def Drive.bestMarker (d : Drive) (h : AreaHeader) : Option Marker :=
  (List.range 16).foldl (fun b k => laterMarker b ((d.markerAt k).filter (fun x => decide (x.fmtid = h.fmtid)))) none

/-! ### Spill area (R456) -/

def Spill.bytes (p : Spill) : List Byte :=
  leBytes 8 0x4C505354 ++ leBytes 8 p.fmtid.toNat ++ leBytes 8 p.unit.toNat ++ leBytes 8 p.pfmt.toNat ++ leBytes 8 p.punit.toNat ++ leBytes 8 p.sjpos
    ++ leBytes 8 p.data.length

/-- Writes the spill header to a block and the spilled bytes behind it. -/
def Drive.putSpill (d : Drive) (lba : Nat) (p : Spill) : Drive :=
  { d with cells := putBytes (putBlock d.cells lba 4092 p.bytes) (lbaByte (lba + 1)) p.data }

/-- The spill area at a block, when its header's MAGIC and CRC are valid. -/
def Drive.spillAt (d : Drive) (lba : Nat) : Option Spill :=
  let f := blockField d.cells lba
  if f 0 4 = 0x4C505354 ∧ blockOk d.cells lba 4092 then
    some { fmtid := BitVec.ofNat 64 (f 8 8), unit := BitVec.ofNat 10 (f 16 2), pfmt := BitVec.ofNat 32 (f 24 4), punit := BitVec.ofNat 16 (f 32 2),
           sjpos := f 40 8, data := bytesAt d.cells (lbaByte (lba + 1)) (f 48 8) }
  else none

/-! ### Image (R229) -/

/-- Cells lo to lo + n - 1 of one list, moved to dst in another, in place of what stood there. -/
def moveCells (src dst : List Host.Cell) (lo n at_ : Nat) : List Host.Cell :=
  (src.filter (fun c => decide (lo ≤ c.1) && decide (c.1 < lo + n))).foldl (fun m c => Map.put 0 m (c.1 - lo + at_) c.2) (zeroBytes dst at_ n)

/-- A byte of the tag-colour region (R229). -/
def tagByte (x : Bool × BitVec 4) : Byte := BitVec.ofNat 8 ((if x.1 then 16 else 0) + x.2.toNat)
def byteTag (b : Byte) : Bool × BitVec 4 := (b.getLsbD 4, BitVec.ofNat 4 (b.toNat % 16))

/-- Where the tag-colour and the cursor region of an image begin. -/
def tagRegion (img size : Nat) : Nat := lbaByte img + size
def cursorRegion (img size : Nat) : Nat := lbaByte img + size + size / 16

/-- The receive-cursor granules that the cursor region lists, by port. -/
def Drive.cursors (d : Drive) (lo : Nat) : List (Nat × Quad) :=
  let ks := (d.cells.filter (fun c => decide (lo ≤ c.1) && decide (c.1 < lo + 65536))).foldl (fun l (c : Host.Cell) => insertNat ((c.1 - lo) / 16) l) []
  ks.map (fun k => (k, BitVec.ofNat 128 (leValue (bytesAt d.cells (lo + 16 * k) 16))))

/-- Writes receive-cursor granules into the cursor region. -/
def Drive.putCursors (d : Drive) (lo : Nat) (l : List (Nat × Quad)) : Drive :=
  { d with cells := l.foldl (fun m c => putBytes m (lo + 16 * c.1) (leBytes 16 c.2.toNat)) (zeroBytes d.cells lo 65536) }

/-! ### Rings (R221) -/

/-- Writes bytes at a journal position of a ring of `size` bytes at `base`. -/
def ringPut (m : List Host.Cell) (base size pos : Nat) : List Byte → List Host.Cell
  | [] => m
  | b :: r => ringPut (Map.put 0 m (base + pos % size) b) base size (pos + 1) r

/-- Bytes of a ring from a journal position. -/
def ringGet (m : List Host.Cell) (base size pos : Nat) : Nat → List Byte
  | 0 => []
  | n + 1 => Map.get 0 m (base + pos % size) :: ringGet m base size (pos + 1) n

end Sys2Proof.Machine
end

