-- ==== Sys2Proof/Machine/PlateOps.lean ====
section
/-! DEFINITION. Plates as every access meets them: footprints, held lines, aborts and the energy that a plate is charged
(R180, R193 to R206, R385). -/

namespace Sys2Proof.Machine

/-! ### Threads by their plates -/

/-- Thread t's plate. -/
def State.plate (s : State) (t : Tid) : Plate := (s.thr t).plate

/-- The lines of the record of a plate of the unit itself (R349). -/
def JRec.ownLines (r : JRec) : List Nat := r.writes.map (fun w => w.1 / 4) ++ r.cursors.map (fun c => cursorLine c.1)

/-- A plate of the unit itself holds the line: its record is not durable yet (R198, R349). An arrival plate's port line is held from the arrival of the
port on: DESIGN CHOICE (log entry 44). -/
def State.ownHeld (s : State) (line : Nat) : Bool :=
  s.etch.recs.any (fun r => r.tid.isNone && r.ownLines.contains line) ||
    s.sudon.incoming.any (fun i => i.arrived && !i.partition && decide (cursorLine i.obj = line))

/-- Some plate of a thread other than t, or of the unit itself, holds the line (R180, R198). -/
def State.heldByOther (s : State) (t : Option Tid) (line : Nat) : Bool :=
  s.ownHeld line || s.threads.any (fun p => decide (p.2.plate.phase = .held) && p.2.plate.writeLines.contains line && decide (some (BitVec.ofNat 9 p.1) ≠ t))

/-- The threads other than t whose LIVE or COMMITTING plate meets the line: in its write set for a read, in its footprint for a write
(R180, R199). -/
def State.meets (s : State) (t : Option Tid) (line : Nat) (write : Bool) : List Tid :=
  (s.threads.filter (fun p => p.2.plate.abortable && decide (some (BitVec.ofNat 9 p.1) ≠ t) &&
    (if write then p.2.plate.footprint line else p.2.plate.writeLines.contains line))).map (fun p => BitVec.ofNat 9 p.1)

/-- Plate-buffer entries of a tile in use (R194, R195). -/
def State.bufferUsed (s : State) (n : Nat) : Nat :=
  s.threads.foldl (fun acc p => if p.1 / 8 = n then acc + p.2.plate.writes.length + p.2.plate.consumed.length else acc) 0

/-! ### Energy of a plate (R381, R385) -/

/-- Coefficient K_k of domain d in step column c, in fJ (R395, R397). -/
def State.coefficient (s : State) (d c k : Nat) : Nat :=
  if s.cal.defaults then Config.defaultCoefficient d c k
  else leValue (bytesAt s.cal.page (0x40 + 64 * d + 16 * c + 4 * k) 4)

/-- One fJ in the ledger's unit. -/
def femtoJoule : Int := 52428800

/-- The work class of a thread group (R387). -/
def State.workClass (s : State) (g : BitVec 4) : Nat := s.rfield .classmap (2 * g.toNat) 2

/-- a / d for a register of finite precision: rounded down, or up where Config says so (R385 gives no rounding). -/
def ratio (a d : Int) : Int := a / d + (if a % d ≠ 0 ∧ Config.ratioUp a d then 1 else 0)

/-- The charge of a plate that ends: its tally, and the journal energy of a record of len bytes (R385). A committed plate updates its
class's energy per plate and count. -/
def State.chargePlate (s : State) (t : Tid) (committed : Bool) (len : Nat) : State :=
  let p := s.plate t
  let charge : Int := p.tally + ((len + 63) / 64 : Nat) * (s.coefficient 99 0 2 : Int) * femtoJoule
  let b := s.bellows
  let g := p.group.toNat
  let b := { b with purses := Map.put 0 b.purses g (Map.get 0 b.purses g - charge) }
  let c := s.workClass p.group
  let old := Map.get 0 b.epp c
  let b := if committed then
      { b with epp := Map.put 0 b.epp c (old + ratio (charge - old) 16), committed := Map.put 0 b.committed c (Map.get 0 b.committed c + 1) }
    else b
  { s with bellows := b }

/-! ### Outstanding results -/

/-- A long operation (R72). -/
def OutKind.isLong : OutKind → Bool
  | .divide _ | .moneyMul _ _ | .moneyDiv _ _ | .moneyTrap _ _ => true
  | _ => false

/-- A money operation (R93). -/
def OutKind.isMoney : OutKind → Bool
  | .moneyMul _ _ | .moneyDiv _ _ | .moneyTrap _ _ => true
  | _ => false

/-- The granules that an outstanding access touches (R168). -/
def OutKind.granules : OutKind → List Nat
  | .load segs _ _ _ => segs.map (fun x => x.1 / 16)
  | .atomic _ _ a _ _ _ _ => [a / 16]
  | _ => []

/-- It holds the tile's integer divider (R72). -/
def OutKind.usesDivider : OutKind → Bool
  | .divide _ => true
  | _ => false

/-- It holds the tile's money divider (R72). -/
def OutKind.usesMoneyDivider : OutKind → Bool
  | .moneyDiv _ _ => true
  | .moneyTrap d _ => d
  | _ => false

/-- A long operation writes its result and its flags (R72, R144); a trap writes nothing (R204). -/
def Thread.writeLong (th : Thread) (o : Out) : Thread :=
  match o.kind with
  | .divide v => th.wrInt o.rd v
  | .moneyMul q f => { (th.setReg o.rd (Cap.ofQuad q)) with mctl := th.mctl ||| f }
  | .moneyDiv q f => { (th.setReg o.rd (Cap.ofQuad q)) with mctl := th.mctl ||| f }
  | _ => th

/-- Threads of tile n parked for a unit become READY (R67). -/
def unparkUnit (s : State) (n : Nat) (why : ParkWhy) : State :=
  { s with threads := s.threads.map (fun p => if p.1 / 8 = n ∧ p.2.st = .parked why then (p.1, { p.2 with st := .ready }) else p) }

/-- A functional unit of tile n is free again. -/
def State.freeDivider (s : State) (n : Nat) : State :=
  unparkUnit (s.setTile n { s.tile n with divBusy := false }) n .divider
def State.freeMoneyDivider (s : State) (n : Nat) : State :=
  unparkUnit (s.setTile n { s.tile n with mdivBusy := false }) n .moneyDivider

/-- The units that a list of outstanding results held are free again. -/
def State.freeUnits (s : State) (n : Nat) (outs : List Out) : State :=
  let s := if outs.any (fun o => o.kind.usesDivider) then s.freeDivider n else s
  if outs.any (fun o => o.kind.usesMoneyDivider) then s.freeMoneyDivider n else s

/-! ### Aborts (R204 to R206) -/

/-- An abort's cause and what the status word carries with it (R205, R214). -/
structure AbortInfo where
  cause : Nat
  code : Nat := 0
  shared : Bool := false
  retry : Bool := false
  deriving DecidableEq, Repr

def AbortInfo.conflict : AbortInfo := { cause := 2, retry := true }
def AbortInfo.interrupt : AbortInfo := { cause := 6, retry := true }
def AbortInfo.journalFull : AbortInfo := { cause := 8, retry := true }
def AbortInfo.migrated : AbortInfo := { cause := 10 }

/-- The plate record after an abort: the status word's fields are set, its sets are empty (R204, R214). -/
def Plate.aborted (p : Plate) (a : AbortInfo) (pc : Nat) : Plate :=
  { p with phase := .none, pdepth := 0, reads := [], writes := [], cleared := [], consumed := [], sends := [], tookRecv := false,
           tookSend := false, ports := [], handover := false, tally := 0, code := BitVec.ofNat 8 a.code, shared := a.shared, retry := a.retry, adepth := p.pdepth,
           cause := a.cause, abortPc := BitVec.ofNat 54 pc }

/-- The thread after an abort of its plate (R204): long operations written, loads abandoned, rd the status word, PCC the target, which has good parity. -/
def Thread.aborted (th : Thread) (a : AbortInfo) : Thread :=
  let p' := th.plate.aborted a th.pcc.cursor
  let th' := th.outs.foldl Thread.writeLong th
  let th' := th'.wrInt th.plate.rd (p'.status 0)
  { th' with
    pcc := th.plate.target, parity := th'.parity.filter (fun p => decide (p ≠ 32)), plate := p', outs := [], rstack := th'.rstack.drop (th'.rstack.length - th.plate.rsDepth),
    st := match th.st with
      | .parked _ => .ready
      | .waiting _ => .ready
      | x => x }

/-- The transmit entries that plate t holds are discarded (R204, R212). -/
def dropSends (s : State) (t : Tid) : State :=
  { s with ports := s.ports.map (fun p => (p.1, { p.2 with txq := p.2.txq.filter (fun e => decide (e.plate ≠ some t) || e.released) })) }

/-- An abort of thread t's plate, as one event (R204). A plate that is not LIVE or COMMITTING does not abort (R189). -/
def State.abortPlate (s : State) (t : Tid) (a : AbortInfo) : State :=
  let th := s.thr t
  if !th.plate.abortable then s
  else
    let s := s.chargePlate t false 0
    let s := if th.plate.sends = [] then s else dropSends s t
    let s := { s with etch := { s.etch with queue := s.etch.queue.filter (fun r => decide (r.who ≠ Committer.thread t)) } }
    let s := s.setThr t (th.aborted a)
    let s := s.freeUnits (tileOf t) th.outs
    if (s.thr t).st = .ready then s.wakeGated (tileOf t) else s

/-- Aborts the plates of several threads. -/
def State.abortAll (s : State) (a : AbortInfo) : List Tid → State
  | [] => s
  | t :: r => (s.abortPlate t a).abortAll a r

/-! ### The L2 marks of footprint lines (R196), and partitions on the move (R349) -/

/-- Tile n's cluster: four tiles each (R18). -/
def clusterOf (t : Tid) : Nat := t.toNat / 32

/-- The threads of cluster c whose plate marks a line (R196). -/
def State.marking (s : State) (c line : Nat) : List Tid :=
  (s.threads.filter (fun p => decide (p.1 / 32 = c) && decide (p.2.plate.phase ≠ .none) && p.2.plate.footprint line)).map (fun p => BitVec.ofNat 9 p.1)

/-- A tile access touches a line in its cluster's L2: the marked lines in order of use, and the plates that lose a line when it fills a set whose
16 ways are all marked (R196). -/
def State.touchLine (s : State) (t : Tid) (line : Nat) : State × List Tid :=
  let c := clusterOf t
  let marked := (Map.get [] s.l2 c).filter (fun l => !(s.marking c l).isEmpty)
  let same := marked.filter (fun l => decide (Config.l2Set l = Config.l2Set line))
  let keep (l : List Nat) : State := { s with l2 := Map.put [] s.l2 c (l.filter (fun x => decide (x ≠ line)) ++ [line]) }
  match same with
  | [] => (keep marked, [])
  | v :: _ =>
    if same.contains line ∨ same.length < 16 then (keep marked, [])
    else (keep (marked.filter (fun x => decide (x ≠ v))), s.marking c v)

/-- Touches lines; the other plates that lose a line abort with CAPACITY_READ. Answers whether t's own plate lost one. -/
def touchLines (s : State) (t : Tid) : List Nat → State × Bool
  | [] => (s, false)
  | l :: r =>
    let (s, lost) := s.touchLine t l
    let (s, me) := touchLines (s.abortAll { cause := 4, retry := true } (lost.filter (fun u => decide (u ≠ t)))) t r
    (s, me || lost.contains t)

/-- The abort of a plate whose marked line is evicted (R196, R205). -/
def AbortInfo.evicted : AbortInfo := { cause := 4, retry := true }

/-- A line of a partition whose slot is MOVING or INCOMING (R349). -/
def State.movingLine (s : State) (line : Nat) : Bool :=
  (List.range 16).any (fun k =>
    let base := (s.rget (.partBase k)).toNat
    decide (2 ≤ s.rfield (.partCtl k) 62 2) && decide (base ≤ 64 * line) && decide (64 * line < base + s.rfield (.partCtl k) 0 16 * 2 ^ 24))

/-- The conflict of one non-transactional or master access with the LIVE plates of other threads (R180, R199). -/
def State.conflict (s : State) (t : Option Tid) (line : Nat) (write : Bool) : State := s.abortAll .conflict (s.meets t line write)

end Sys2Proof.Machine
end

