-- ==== Sys2Proof/Machine/PortWait.lean ====
section
/-! DEFINITION. Ports as PWAIT sees them: readiness, claims, and the waiter that a newly ready port goes to (R293, R316). -/

namespace Sys2Proof.Machine

/-- Port n (R298); a port not listed is FREE. -/
def State.port (s : State) (n : Nat) : Port := Map.get Port.reset s.ports n

def State.setPort (s : State) (n : Nat) (p : Port) : State := { s with ports := Map.set s.ports n p }

def State.modPort (s : State) (n : Nat) (f : Port → Port) : State := s.setPort n (f (s.port n))

/-- The port holds an undelivered message, or a notice that no PWAIT has returned (R316). -/
def Port.ready (p : Port) : Bool := !p.rxq.isEmpty || (decide (p.notice ≠ .none) && !p.noticeReturned)

/-- Port p is ready for thread t of world w: bound in that world, ready, not claimed by another thread (R293, R316). -/
def Port.readyFor (p : Port) (t : Tid) (w : World) : Bool :=
  decide (p.state ≠ .free) && decide (p.world = w) && p.ready && (decide (p.claim = none) || decide (p.claim = some t))

/-- PWAIT returns port n to thread t: the claim, the thread's last returned port, and the notice when no message is left (R316). -/
def State.claimPort (s : State) (t : Tid) (n : Nat) : State :=
  let s := s.modPort n (fun p => { p with claim := some t, noticeReturned := p.noticeReturned || (p.rxq.isEmpty && decide (p.notice ≠ .none)) })
  s.modThr t (fun th => { th with lastPort := some n })

/-- The port that a PWAIT over lo to hi - 1 finds (R316): the first after the last returned one, wrapping within the set. -/
def findPort (s : State) (t : Tid) (lo hi : Nat) : Option Nat :=
  let th := s.thr t
  let l := (s.ports.filter (fun p => decide (lo ≤ p.1) && decide (p.1 < hi) && p.2.readyFor t th.world)).map (·.1)
  match th.lastPort with
  | some k => if lo ≤ k ∧ k < hi then (match l.find? (fun n => decide (k < n)) with
      | some n => some n
      | none => l.head?)
    else l.head?
  | none => l.head?

/-- The stamp of thread th's PWAIT when port n is in its set and world. -/
def waitsFor (th : Thread) (w : World) (n : Nat) : Option Nat :=
  match th.st with
  | .waiting (.pwait _ lo hi stamp) => if lo ≤ n ∧ n < hi ∧ th.world = w then some stamp else none
  | _ => none

/-- The longest waiter for port n. -/
def longestWaiter (w : World) (n : Nat) : List (Nat × Thread) → Option (Nat × Nat)
  | [] => none
  | (k, th) :: r =>
    match waitsFor th w n, longestWaiter w n r with
    | some a, some (b, j) => if a ≤ b then some (a, k) else some (b, j)
    | some a, none => some (a, k)
    | none, x => x

/-- A port that may have become ready goes to the thread that has waited longest for it (R316). -/
def State.offerPort (s : State) (n : Nat) : State :=
  let p := s.port n
  if p.state = .free ∨ !p.ready ∨ p.claim ≠ none then s
  else
    match longestWaiter p.world n s.threads with
    | none => s
    | some (_, k) =>
      let t : Tid := BitVec.ofNat 9 k
      match (s.thr t).st with
      | .waiting (.pwait rd _ _ _) => ((s.claimPort t n).modThr t (fun th => (th.dropOlder s.fresh [rd]).wrInt rd (BitVec.ofNat 64 n))).complete t
      | _ => s

/-- Offers several ports. -/
def State.offerPorts (s : State) : List Nat → State
  | [] => s
  | n :: r => (s.offerPort n).offerPorts r

/-- Every port claim of thread t ends, and the ports go to other waiters (R281, R316). -/
def endClaims (s : State) (t : Tid) : State :=
  let mine := (s.ports.filter (fun p => decide (p.2.claim = some t))).map (·.1)
  State.offerPorts { s with ports := s.ports.map (fun p => (p.1, if p.2.claim = some t then { p.2 with claim := none } else p.2)) } mine

end Sys2Proof.Machine
end

