-- ==== Sys2Proof/Machine/Gates.lean ====
section
/-! DEFINITION. Stencil gates: the decision of R363 for one granule, the earlier tables that a tile access may still meet (R367, R368),
and what a denial leaves (R366, R371, R374). -/

namespace Sys2Proof.Machine

/-- A gate's decision for one granule (R363). -/
inductive Decision where
  | allow
  | monitor (region : Nat)
  | deny (region : Nat) (colour locked : Bool)
  deriving DecidableEq, Repr

/-- What an access brings to a gate: its identity, its kind, and the colours compared when it carries one (R365). -/
structure GateAsk where
  id : Nat
  rd : Bool
  wr : Bool
  colours : Option (BitVec 4 × BitVec 4)
  deriving DecidableEq, Repr

/-- gate_check of R363 from region r on, over a table of region registers. -/
def gateScan (tab : List (Nat × Word)) (g a : Nat) (q : GateAsk) : Nat → Nat → Decision
  | 0, _ => .allow
  | k + 1, r =>
    let attr := Map.get 0 tab (RName.gAttr g r).addr
    let start := (Map.get 0 tab (RName.gStart g r).addr).toNat
    let stop := (Map.get 0 tab (RName.gEnd g r).addr).toNat
    let mode := bitsOf attr 4 2
    if mode ≠ 0 ∧ start ≤ a / 16 ∧ a / 16 < stop then
      if q.id = 5 ∧ attr.getLsbD 63 then .deny r false true
      else if attr.getLsbD (16 + q.id) then
        let kindOk := (!q.rd || attr.getLsbD 0) && (!q.wr || attr.getLsbD 1)
        let colourBad := kindOk && attr.getLsbD 8 &&
          (match q.colours with
            | some (c, g) => decide (c ≠ g) && decide (g ≠ 15)
            | none => false)
        if kindOk && !colourBad then .allow
        else if mode = 2 then .monitor r
        else .deny r colourBad false
      else gateScan tab g a q k (r + 1)
    else gateScan tab g a q k (r + 1)

/-- The region registers of a gate as they stand. -/
def State.gateTable (s : State) (g : Nat) : List (Nat × Word) :=
  s.regs.filter (fun p => decide ((RName.gStart g 0).addr ≤ p.1 ∧ p.1 < (RName.gateSync g).addr))

/-- The table that an access uses: a tile access at GATE_0 to GATE_7 may still meet an earlier one, until GATE_SYNC completes
(R367, R368); which one is free. -/
def State.gateTableFor (s : State) (m : Master) (g a : Nat) : List (Nat × Word) :=
  match m with
  | .tile _ =>
    let old := Map.get [] s.gateOld g
    if old.isEmpty then s.regs
    else (old[Config.staleTable (a / 16) s.fresh % (old.length + 1)]?).getD s.regs
  | _ => s.regs

/-- The kind code of an access in event payloads (R404). -/
def kindCode (rd wr : Bool) : Nat := if rd && wr then 2 else if wr then 1 else 0

/-- One granule's decision, with its records: the events of R374 and, for a denial, DENY_CNT, DENY_ADDR and DENY_INFO (R366, R371). -/
def State.gateGranule (s : State) (m : Master) (g a : Nat) (rd wr : Bool) (colours : Option (BitVec 4 × BitVec 4)) : State × Decision :=
  let id := masterCode m
  let ga := a / 16 * 16
  match gateScan (s.gateTableFor m g a) g a { id := id, rd := rd, wr := wr, colours := colours } 32 0 with
  | .allow => (s, .allow)
  | .monitor r => (s.event 0x0403 3 g [(1, g), (1, id), (8, ga), (1, kindCode rd wr), (1, r)], .allow)
  | .deny r c l =>
    let s := s.rcount (.denyCnt g)
    let s := s.rset (.denyAddr g) (BitVec.ofNat 64 ga)
    let s := s.rset (.denyInfo g) (BitVec.ofNat 64 ((if l then 1024 else 0) + (if c then 512 else 0) + r * 16 + (if wr then 8 else 0) + id))
    let s := s.event 0x0401 3 g [(1, g), (1, id), (8, ga), (1, kindCode rd wr), (1, r)]
    let s := if l then s.event 0x0402 3 g [(1, g), (8, ga), (1, kindCode rd wr), (1, r)] else s
    (s, .deny r c l)

/-- The decision at the gate of a's target; a target without a gate allows. -/
def State.gateAccess (s : State) (m : Master) (a : Nat) (rd wr : Bool) (colours : Option (BitVec 4 × BitVec 4)) : State × Decision :=
  match s.gateOf a with
  | some g => s.gateGranule m g a rd wr colours
  | none => (s, .allow)

/-- A change of a region of GATE_0 to GATE_7 keeps the table before it for the decisions that L2 slices may still hold (R367, R368). -/
def State.keepGateTable (s : State) (g : Nat) : State :=
  if g < 8 then { s with gateOld := Map.set s.gateOld g (Map.get [] s.gateOld g ++ [s.gateTable g]) } else s

end Sys2Proof.Machine
end

