-- ==== Sys2Proof/Machine/PortEntry.lean ====
section
/-! DEFINITION. The state entry of a conversation port: CONF, the receive cursor, receive-ring space, the status word, and the entry as words
(R298 to R300, R310, R322, R457). -/

namespace Sys2Proof.Machine

/-! ### CONF (R300) -/

def confMaxFrame (w : Word) : Nat := bitsOf w 16 16
def confDelim (w : Word) : Byte := BitVec.ofNat 8 (bitsOf w 8 8)
def confHold (w : Word) : Bool := w.getLsbD 7
def confDropEmpty (w : Word) : Bool := w.getLsbD 6
def confReset1 (w : Word) : Bool := w.getLsbD 5
def confFraming (w : Word) : Nat := bitsOf w 0 3

/-! ### The receive cursor (R299) -/

/-- SOFF: where the next unconsumed message starts. Bytes discarded before it lie before its start (R299, R311). -/
def Port.streamOffset (p : Port) : BitVec 32 :=
  match p.rxq with
  | d :: _ => p.soff + BitVec.ofNat 32 d.lead
  | [] => p.soff

/-- RXCUR. -/
def Port.rxcur (p : Port) : Quad :=
  BitVec.ofNat 128 (p.consumed % 2 ^ 64 + p.streamOffset.toNat * 2 ^ 64 + p.gen.toNat * 2 ^ 96 + p.bindno % 65536 * 2 ^ 112)

/-- A port with RXCUR as a recovered granule gives it (R219, R240). -/
def Port.withRxcur (p : Port) (q : Quad) : Port :=
  { p with consumed := field q 0 64, soff := BitVec.ofNat 32 (field q 64 32), gen := BitVec.ofNat 16 (field q 96 16), bindno := field q 112 16 }

/-- The stream bytes that k descriptors cover. -/
def spanOf (l : List RxDesc) (k : Nat) : Nat := (l.take k).foldl (fun a d => a + d.span) 0

/-- The port after k more messages are consumed: the cursor, and the ring bytes that they held (R203, R310). -/
def Port.afterConsume (p : Port) (k : Nat) : Port :=
  let rest := p.rxq.drop k
  let r := match (p.rxq.take k).getLast? with
    | some d => d.freed
    | none => p.rOff
  { p with rxq := rest, consumed := p.consumed + (p.rxq.take k).length, soff := p.soff + BitVec.ofNat 32 (spanOf p.rxq k),
           rOff := if rest.all (fun d => decide (d.len = 0)) then p.wOff else r }

/-! ### The receive ring (R310) -/

/-- The length of the receive ring. -/
def Port.ring (p : Port) : Nat := p.rxbuf.length

/-- Some ring byte is held by an unconsumed message. -/
def Port.holds (p : Port) : Bool := p.rxq.any (fun d => decide (d.len ≠ 0))

/-- Ring bytes held by unconsumed messages and by what was skipped before them. -/
def Port.used (p : Port) : Nat :=
  if !p.holds then 0 else if p.rOff < p.wOff then p.wOff - p.rOff else p.ring - p.rOff + p.wOff

/-- Where a reservation of n bytes is placed: at the write offset, else at 0; none while its range is not free. -/
def Port.place (p : Port) (n : Nat) : Option Nat :=
  let w := p.wOff
  if w + n ≤ p.ring then
    (if !p.holds ∨ p.rOff < w ∨ w + n ≤ p.rOff then some w else none)
  else if n > p.ring then none
  else if !p.holds ∨ (p.rOff < w ∧ n ≤ p.rOff) then some 0 else none

/-- What the current reservation takes: its bytes, and the bytes skipped before it; in a ring that holds no message every other byte is free
(R310). -/
def Port.taken (p : Port) : Nat :=
  if p.resv = 0 then 0 else if p.wOff + p.resv ≤ p.ring ∨ !p.holds then p.resv else p.resv + (p.ring - p.wOff)

/-- The room that the receive window offers (R303): free, unreserved bytes, less the received bytes that no reservation covers yet. -/
def Port.room (p : Port) : Nat := p.ring - p.used - p.taken - (p.stream.length - p.resv) - p.cipher.length

/-! ### The status word (R322) -/

def noticeCode : Notice → Nat
  | .none => 0
  | .closed => 2
  | .reset => 3

def pstateCode : PState → Nat
  | .free => 0 | .synRcvd => 1 | .handshake => 2 | .open => 3 | .closing => 4 | .closed => 5

/-- TLSPH. -/
def Port.tlsPhase (p : Port) : Nat :=
  if !p.tls then 0 else if p.rxStopped then 3 else if p.state = .handshake then 1 else if p.state = .open ∨ p.state = .closing then 2 else 0

/-- The port's state has gone to another unit, and its TCP processing here has stopped (R349 step 4). -/
def Port.gone (p : Port) : Bool := p.moved.isSome && p.away

/-- The status word of PCTL QUERY; a port whose state has gone shows CLOSED (R350). -/
def Port.statusWord (p : Port) : Word :=
  BitVec.ofNat 64 (p.txDone % 2 ^ 32 * 2 ^ 32 + (4 - p.txq.length) * 2 ^ 24 + p.rxq.length * 2 ^ 16 + noticeCode p.notice * 2 ^ 12
    + p.tlsPhase * 2 ^ 10 + (if p.claim.isSome then 2 ^ 9 else 0) + (if p.finSent then 2 ^ 8 else 0)
    + (if p.gone then 5 else pstateCode p.state))

/-! ### The entry as bytes (R298, R457) -/

/-- Word k of a transmit entry. -/
def txWord (e : Option TxEntry) (k : Nat) : Nat :=
  match e with
  | none => 0
  | some e =>
    match k with
    | 0 => field e.cap.bits 0 64
    | 1 => field e.cap.bits 64 64
    | 2 => e.len + e.stamp % 2 ^ 32 * 2 ^ 32
    | _ => e.stamp / 2 ^ 32 % 2 ^ 32 + (1 + (if e.ofPlate then 2 else 0) + (if e.released then 4 else 0)
        + (if e.sent then 8 else 0)) * 2 ^ 32

/-- Word k of a port's entry. The layout within the TCB field is not given and the delimiter state is not defined: both read as the
free value `free` (log entry 10). -/
def Port.entryWord (p : Port) (free : Word) (k : Nat) : Nat :=
  let link := p.lport.toNat + p.rport.toNat * 2 ^ 16 + p.peerMac.toNat * 2 ^ 32 + ((p.vlan.getD 0).toNat) * 2 ^ 80
    + (if p.vlan.isSome then 2 ^ 92 else 0) + p.mac % 8 * 2 ^ 93
  if k = 0 then field p.rxcur 0 64 else if k = 1 then field p.rxcur 64 64
  else if k = 2 then field p.rxbuf.bits 0 64 else if k = 3 then field p.rxbuf.bits 64 64
  else if k = 4 then p.conf.toNat else if k = 5 then p.statusWord.toNat
  else if k = 6 then (p.listener % 64 + (if p.world = .vault then 256 else 0) + p.troot.toNat % 2 ^ 54 * 2 ^ 10)
  else if k = 8 then field p.laddr 0 64 else if k = 9 then field p.laddr 64 64
  else if k = 10 then field p.raddr 0 64 else if k = 11 then field p.raddr 64 64
  else if k = 12 then link % 2 ^ 64 else if k = 13 then link / 2 ^ 64
  else if 14 ≤ k ∧ k < 24 then free.toNat
  else if k = 24 then (p.rxSlot.getD 0) % 8192 + (p.txSlot.getD 0) % 8192 * 2 ^ 16 + p.tlsPhase * 2 ^ 30
  else if k = 26 then p.wOff + p.rOff * 2 ^ 32
  else if k = 27 then p.resv + free.toNat % 2 ^ 32 * 2 ^ 32
  else if k = 28 then p.msgsIn % 65536 + p.bytesIn % 65536 * 2 ^ 16 + p.msgsOut % 65536 * 2 ^ 32 + p.txDone % 65536 * 2 ^ 48
  else if k = 29 then p.policy % 65536 + p.trunc % 65536 * 2 ^ 16
  else if 32 ≤ k ∧ k < 48 then
    (match p.rxq[k - 32]? with
      | some d => d.len % 65536 + d.off % 2 ^ 32 * 2 ^ 16 + d.num % 65536 * 2 ^ 48
      | none => 0)
  else if 48 ≤ k ∧ k < 64 then txWord p.txq[(k - 48) / 4]? (k % 4)
  else 0

end Sys2Proof.Machine
end

