-- ==== Sys2Proof/Machine/DevRead.lean ====
section
/-! DEFINITION. Reads of the registers of the 0x3F00 blocks and of the SRAMs of the port die by any master: refusals (R32, R220, R301), width and
alignment (R12), reserved offsets (R30, R33), and what each register reads as (R10). -/

namespace Sys2Proof.Machine

/-! ### Refusals that no gate decides -/

/-- A target's refusal of an access, whatever its gate allows: the gate it is reported for, and an event (R32, R220, R301). -/
structure Refuse where
  gate : Nat
  event : Option (Nat × Nat × Nat)
  deriving DecidableEq, Repr

/-- Whether a master is a tile thread running in the Vault world (R269). -/
def State.vaultTile (s : State) : Master → Bool
  | .tile t => decide ((s.thr t).world = .vault)
  | _ => false

/-- The refusals of R32 (crypto block), R220 (journal SRAM) and R301 (port-state SRAM). -/
def State.refusal (s : State) (m : Master) (a : Nat) (wr : Bool) : Option Refuse :=
  match s.target a with
  | .journal =>
    if wr || (match m with
        | .tile _ => !s.vaultTile m
        | .host | .debug => true
        | _ => false)
    then some { gate := 8, event := some (0x0609, 4, 0) } else none
  | .portState => if wr then some { gate := 9, event := some (0x0707, 5, 0xFFF) } else none
  | .mmio =>
    if 0x3F0000090000 ≤ a ∧ a < 0x3F00000A0000 then
      (match m with
        | .tile _ => if s.vaultTile m then none else some { gate := 10, event := none }
        | _ => some { gate := 10, event := none })
    else none
  | _ => none

/-- How a granule of a target answers a master: it lets the access pass, its gate denies it (for the colour, or not), or it refuses it. -/
inductive Verdict where
  | pass
  | denied (colour : Bool)
  | refused (gate : Nat)
  deriving DecidableEq, Repr

/-- The gate and the refusals of a's target (R32, R220, R301, R363): a refusal leaves its event whatever the gate decides. -/
def State.verdict (s : State) (m : Master) (a : Nat) (rd wr : Bool) (colours : Option (BitVec 4 × BitVec 4)) : State × Verdict :=
  let f := s.refusal m a wr
  let s := match f.bind Refuse.event with
    | some (c, k, i) => s.event c k i [(1, masterCode m), (8, a)]
    | none => s
  match s.gateAccess m a rd wr colours, f with
  | (s, .deny _ c _), _ => (s, .denied c)
  | (s, _), some f => (s, .refused f.gate)
  | (s, _), none => (s, .pass)

/-! ### What registers read as -/

/-- STATE codes of DOMCTL (R394). -/
def powerCode : Power → Nat
  | .active => 0
  | .gated => 1
  | .retention => 2
  | .off => 3
  | .waking => 4

/-- The pool of a listener (R321). -/
def State.pool (s : State) (l : Nat) : Option Pool := Map.get none s.pools l

/-- Region r of gate g is locked. -/
def State.isLocked (s : State) (g r : Nat) : Bool := (s.rget (.gAttr g r)).getLsbD 63

/-- GATE_STAT: SYNCBUSY and the count of locked regions. -/
def State.gateStat (s : State) (g : Nat) : Word :=
  BitVec.ofNat 64 (s.rfield (.gateStat g) 0 1 + ((List.range 32).filter (s.isLocked g)).length * 256)

/-- The access reaches vector v of tile n: a Vault-world vector only from a Vault-world tile. -/
def State.reachesVector (s : State) (m : Master) (n v : Nat) : Bool := s.vaultTile m || decide (vcfgWorld (s.rget (.vcfg n v)) = .main)

/-- PEND_k as a master reads it. -/
def State.readPend (s : State) (m : Master) (n k : Nat) : Word :=
  ((s.tile n).pend.filter (fun v => decide (v / 64 = k) && s.reachesVector m n v)).foldl (fun w v => w ||| (1 : Word) <<< (v % 64)) 0

/-- LSTAT_L. -/
def State.lstat (s : State) (l : Nat) : Word :=
  match s.pool l with
  | none => 0
  | some p => BitVec.ofNat 64 (1 + (if p.world = .vault then 2 else 0) + bitsOf p.troot 0 12 * 4)

/-- CAL_STAT (R396). -/
def State.calStat (s : State) : Word :=
  BitVec.ofNat 64 ((if s.cal.busy then 1 else 0) + (if s.cal.failed then 2 else 0) + (if s.cal.defaults then 4 else 0) + s.cal.erases % 4096 * 65536)

/-- The slot of record k (R400). -/
def slotOf (k : Nat) : Nat := if k < 128 then k else 128 + (k - 128) % 896

/-- REC_HEAD. -/
def State.recHead (s : State) : Word := BitVec.ofNat 64 (s.recorder.count % 2 ^ 32 * 2 ^ 32 + slotOf s.recorder.count)

/-- The snapshot of the cursor's slot (R409); a slot never written reads zero. -/
def State.takeSnapshot (s : State) : State :=
  { s with recorder := { s.recorder with snapshot := sliceBytes (Map.get [] s.recorder.slots (s.rfield .recCursor 0 10)) 0 32 } }

/-- The read that returns byte 31 steps the cursor (R409). -/
def State.stepCursor (s : State) : State :=
  let k := s.rfield .recCursor 0 10
  (s.rset .recCursor (BitVec.ofNat 64 (if k = 1023 then 128 else k + 1))).takeSnapshot

/-! ### Reads (R10) -/

/-- A level in µJ or nJ for a register of finite precision. -/
def levelWord (x unit : Int) : Word := BitVec.ofInt 64 (ratio x unit)

/-- A register that reads as zero: write only (R10). -/
def RName.writeOnly : RName → Bool
  | .hostIrq | .calKey | .calCmd | .gateSync _ | .sdCmd | .etchCmd | .keyReg _ | .ivReg _ | .kcmd | .swset _ => true
  | _ => false

/-- The MSI-X pending bits k (R428, R433). -/
def State.pbaWord (s : State) (k : Nat) : Word :=
  (s.msix.pending.filter (fun v => decide (v / 64 = k))).foldl (fun w v => w ||| (1 : Word) <<< (v % 64)) 0

/-- A read of a register by a master, after the gate and the refusals. -/
def State.regRead (s : State) (m : Master) (r : RName) : Word :=
  match r with
  | .pba k => s.pbaWord k
  | .bucket => levelWord s.bellows.bucket microJoule
  | .epp c => BitVec.ofNat 64 ((levelWord (Map.get 0 s.bellows.epp c) (microJoule / 1000)).toNat % 2 ^ 32)
  | .purse g => levelWord (Map.get 0 s.bellows.purses g) microJoule
  | .energy => levelWord s.bellows.energy microJoule
  | .domctl d => s.rget (.domctl d) ||| BitVec.ofNat 64 (powerCode (s.power d) * 256)
  | .recHead => s.recHead
  | .recWindow k => BitVec.ofNat 64 (leValue (sliceBytes s.recorder.snapshot (8 * k) 8))
  | .calPage k => BitVec.ofNat 64 (leValue (bytesAt s.cal.page (8 * k) 8))
  | .calStaging k => BitVec.ofNat 64 (leValue (bytesAt s.cal.staging (8 * k) 8))
  | .calStat => s.calStat
  | .gateStat g => s.gateStat g
  | .lstat l => s.lstat l
  | .vcfg n v => if s.reachesVector m n v then s.rget (.vcfg n v) else 0
  | .pend n k => s.readPend m n k
  | _ => if r.writeOnly then 0 else s.rget r

/-! ### Accesses (R12, R30, R33) -/

/-- Word k of port-state SRAM; the parts with no defined layout read as a fresh free value (R457, log entry 10). -/
def State.portWord (s : State) (a : Nat) : State × Nat :=
  let (s, w) := s.freeWord
  let n := (a - 0x3E0001000000) / 512
  (s, (s.port n).entryWord w ((a - 0x3E0001000000) % 512 / 8) % 2 ^ 64)

/-- Bytes of port-state SRAM at an address inside a granule. -/
def State.portRead (s : State) (a n : Nat) : State × Nat :=
  let (s, lo) := s.portWord (a / 16 * 16)
  let (s, hi) := s.portWord (a / 16 * 16 + 8)
  (s, ((lo + hi * 2 ^ 64) / 256 ^ (a % 16)) % 256 ^ n)

/-- R12: a register access has 4 or 8 bytes and is naturally aligned. -/
def legalWidth (a n : Nat) : Bool := (decide (n = 4) || decide (n = 8)) && decide (a % n = 0)

/-- A read of n bytes at a target other than DRAM. A wrong width or alignment reads zero and leaves no event, at an unassigned offset too: DESIGN
CHOICE, R12 before R33 (log entry 41). The read that returns byte 31 of REC_WINDOW steps the cursor (R409). -/
def State.devRead (s : State) (m : Master) (a n : Nat) : State × Nat :=
  match s.target a with
  | .mmio =>
    if legalWidth a n then
      match regAt (a / 8 * 8) with
      | some r =>
        let w := s.regRead m r
        let s := if r = .recWindow 3 ∧ (n = 8 ∨ a % 8 = 4) then s.stepCursor else s
        (s, if n = 8 then w.toNat else bitsOf w (if a % 8 = 4 then 32 else 0) 32)
      | none => (s.reservedEvent m a, 0)
    else (s, 0)
  | .journal => (s, leValue (bytesAt s.mem a n))
  | .portState => s.portRead a n
  | _ => (s.reservedEvent m a, 0)

end Sys2Proof.Machine
end

