-- ==== Sys2Proof/Machine/Bus.lean ====
section
/-! DEFINITION. Physical accesses of the masters other than the tiles, and lines in uncorrectable error (R30, R58, R167, R169, R180, R199, R366). -/

namespace Sys2Proof.Machine

/-! ### Uncorrectable errors (R58) -/

/-- A DRAM line is in uncorrectable error, or in repair (R58, R238). -/
def State.inError (s : State) (line : Nat) : Bool := (Map.find s.ue line).isSome

/-- Repair of a Durable line in error starts with the read of its image block (R238). -/
def State.startRepair (s : State) (line : Nat) : State :=
  if s.isDurable (64 * line) && !(s.etch.repair.contains line) then
    { s with etch := { s.etch with repair := s.etch.repair ++ [line], nvme := s.etch.nvme ++ [.repairRead line] } }
  else s

/-- The error is found: event 0x0301 the first time, with the memory type 2 for a line reached through a Device page (R22, R58), and repair of a
Durable line starts (R238). -/
def State.foundErrorAs (s : State) (m : Master) (line : Nat) (device : Bool) : State :=
  let a := 64 * line
  let first := Map.find s.ue line == some false
  let s := if first then
      State.event { s with ue := Map.set s.ue line true } 0x0301 2
        (match s.target a with
          | .dram n => n
          | _ => 0)
        [(8, a), (1, masterCode m), (1, if device then 2 else if s.isDurable a then 1 else 0)]
    else s
  s.startRepair line

/-- The error is found by an access without a page, or through a Normal or Durable one. -/
def State.foundError (s : State) (m : Master) (line : Nat) : State := s.foundErrorAs m line false

/-- A read of a line with one failed device is corrected: event 0x0302 (R22, R50). Every access counts as a read of the media: DESIGN CHOICE, a
cache may hold the line (log entry 40). -/
def State.mediaRead (s : State) (line : Nat) : State :=
  match Map.find s.weak line with
  | none => s
  | some pos =>
    match s.target (64 * line) with
    | .dram n => s.event 0x0302 2 n [(1, n), (8, 64 * line), (1, pos)]
    | _ => s

/-! ### Bus accesses -/

/-- How a target answers a master. -/
inductive BusAns where
  | ok | error | wait
  deriving DecidableEq, Repr

/-- Masters whose accesses meet plates (R180, R199); ETCHER, SERVICE and SUDON do not conflict. -/
def meetsPlates : Master → Bool
  | .tile _ | .portdma | .host | .debug => true
  | _ => false

/-- The bytes of one granule that segment (a, n) covers. -/
def State.segBytes (s : State) (a n : Nat) : List Byte := leBytes n (granBytes (s.granuleAt (a / 16)) (a % 16) n)

/-- The granule-sized segments of n bytes from a. -/
def segsOf (a : Nat) : Nat → Nat → List (Nat × Nat)
  | 0, _ => []
  | k + 1, n =>
    if n = 0 then [] else
    let room := min n (16 - a % 16)
    (a, room) :: segsOf (a + room) k (n - room)

/-- All segments of an access of n bytes. -/
def segments (a n : Nat) : List (Nat × Nat) := segsOf a (n / 16 + 2) n

/-- The bytes of each segment, in order. -/
def chunk : List (Nat × Nat) → List Byte → List (Nat × List Byte)
  | [], _ => []
  | (a, n) :: r, d => (a, d.take n) :: chunk r (d.drop n)

/-- What an access to a's granule meets: a HOST access to DRAM comes through BAR2 and meets GATE_11 before the gate of the memory controller
(R359). -/
def State.busGates (s : State) (m : Master) (a : Nat) (rd wr : Bool) : State × Bool :=
  match (if m = .host ∧ a < 0x10000000000 then s.gateGranule m 11 a rd wr none else (s, .allow)) with
  | (s, .deny _ _ _) => (s, false)
  | (s, _) => let (s, v) := s.verdict m a rd wr none; (s, decide (v = .pass))

/-- Reads n bytes of one granule: a denied, refused or unreadable one reads as zeros and answers an error (R30, R366). `legal` says that the
whole access has a width and alignment of R12. -/
def State.busReadSeg (s : State) (m : Master) (legal : Bool) (a n : Nat) : State × Bool × List Byte :=
  let zeros := List.replicate n (0 : Byte)
  match s.busGates m a true false with
  | (s, false) => (s, false, zeros)
  | (s, true) =>
    let s := if meetsPlates m then s.conflict none (a / 64) false else s
    match s.target a with
    | .dram _ =>
      if s.inError (a / 64) then (s.foundError m (a / 64), false, zeros) else (s.mediaRead (a / 64), true, s.segBytes a n)
    | .mmio => if legal then let (s, v) := s.devRead m a n; (s, true, leBytes n v) else (s, true, zeros)
    | _ => let (s, v) := s.devRead m a n; (s, true, leBytes n v)

/-- Reads the segments one granule at a time. -/
def busReadSegs (s : State) (m : Master) (legal : Bool) : List (Nat × Nat) → State × Bool × List Byte
  | [] => (s, true, [])
  | (a, n) :: r =>
    let (s, ok, d) := s.busReadSeg m legal a n
    let (s, ok', d') := busReadSegs s m legal r
    (s, ok && ok', d ++ d')

/-- A write of one piece at a target other than DRAM: a register write is posted and performed by the same command, a reserved address records
event 0x0404 for each granule of the access (R30; DESIGN CHOICE, log entry 41), an SRAM drops it. -/
def State.postWrite (s : State) (m : Master) (legal : Bool) (a : Nat) (d : List Byte) : State :=
  match s.target a with
  | .mmio => if legal then { s with posted := s.posted ++ [(m, a, d)] } else s
  | .journal => s
  | .portState => s
  | _ => s.reservedEvent m a

/-- Writes bytes of one granule: a denied, refused or unreadable one is left as it is (R55, R58, R366). -/
def State.busWriteSeg (s : State) (m : Master) (legal : Bool) (a : Nat) (d : List Byte) : State × Bool :=
  match s.busGates m a false true with
  | (s, false) => (s, false)
  | (s, true) =>
    match s.target a with
    | .dram _ =>
      if s.inError (a / 64) then (s.foundError m (a / 64), false)
      else
        let s := s.mediaRead (a / 64)
        let s := if meetsPlates m then s.conflict none (a / 64) true else s
        (s.applyWrite (.bytes a d), true)
    | _ => (s.postWrite m legal a d, true)

/-- Writes the segments one granule at a time. -/
def busWriteSegs (s : State) (m : Master) (legal : Bool) : List (Nat × List Byte) → State × Bool
  | [] => (s, true)
  | (a, d) :: r =>
    let (s, ok) := s.busWriteSeg m legal a d
    let (s, ok') := busWriteSegs s m legal r
    (s, ok && ok')

/-- A read by a master other than a tile: it waits for a held line (R180). -/
def State.busRead (s : State) (m : Master) (a n : Nat) : State × BusAns × List Byte :=
  let segs := segments a n
  if meetsPlates m && segs.any (fun x => s.heldByOther none (x.1 / 64)) then (s, .wait, [])
  else
    let (s, ok, d) := busReadSegs s m (legalWidth a n) segs
    (s, if ok then .ok else .error, d)

/-- A write by a master other than a tile (R167, R180): refused whole in the Durable area with event 0x0609, but for the Etcher. -/
def State.busWrite (s : State) (m : Master) (a : Nat) (d : List Byte) : State × BusAns :=
  let segs := chunk (segments a d.length) d
  if m ≠ .etcher ∧ segs.any (fun x => s.isDurable x.1) then (s.event 0x0609 4 0 [(1, masterCode m), (8, a)], .error)
  else if meetsPlates m && segs.any (fun x => s.heldByOther none (x.1 / 64)) then (s, .wait)
  else
    let (s, ok) := busWriteSegs s m (legalWidth a d.length) segs
    (s, if ok then .ok else .error)

end Sys2Proof.Machine
end

