-- ==== Sys2Proof/Machine/Translate.lean ====
section
/-! DEFINITION. Address translation: tables, identity mode, TLBs, permission steps and protection keys (R246 to R267). -/

namespace Sys2Proof.Machine

/-- Memory types of a page (R164, R248). -/
inductive PageType where
  | normal | durable | device
  deriving DecidableEq, Repr

/-- What translation gives for an address: the physical address and the page's type and world. -/
structure Trans where
  pa : Nat
  ptype : PageType
  world : World
  deriving DecidableEq, Repr

/-- The answer of a translation: a translation, a cause with its DETAIL, a wait for a held line (R266), or the
eviction of a line that the thread's own plate marks (R196). -/
inductive TrAns where
  | ok (x : Trans)
  | exc (cause detail : Nat)
  | wait
  | lost
  deriving DecidableEq, Repr

/-- What an access needs of a page (R254). -/
structure Want where
  rd : Bool
  wr : Bool
  ex : Bool
  deriving DecidableEq, Repr

/-- Physical bits [45:14] of an entry as an address (R248). -/
def entryPa (e : Word) : Nat := bitsOf e 14 32 * 16384

/-- A valid entry that is malformed at level lv (R249). -/
def malformed (e : Word) (lv : Nat) : Bool :=
  let leaf := e.getLsbD 46
  decide (bitsOf e 47 17 ≠ 0) || (leaf && decide (lv = 0)) || (!leaf && decide (lv = 3)) || (leaf && decide (bitsOf e 6 2 = 3))
    || (leaf && decide (lv = 1) && decide (bitsOf e 14 20 ≠ 0)) || (leaf && decide (lv = 2) && decide (bitsOf e 14 10 ≠ 0))
    || (!leaf && decide (bitsOf e 1 13 ≠ 0))

/-- The bytes that one entry of level lv covers, as a power of two (R246). -/
def coverBits (lv : Nat) : Nat := 44 - 10 * lv

/-- The address-space identifier of a root (R251). -/
def asidOf (troot : Word) : BitVec 12 := troot.setWidth 12

/-- A TLB entry matches a translation of va (R257). -/
def TlbEntry.covers (x : TlbEntry) (asid : BitVec 12) (w : World) (va : Nat) : Bool :=
  decide (x.asid = asid) && decide (x.world = w) && decide (x.page = va / 2 ^ coverBits x.level)

/-- Adds an entry to the places of a TLB that `same` picks, n of them; the oldest there goes when they are full (the replacement is not given, log
entry 9). -/
def tlbAdd (n : Nat) (same : TlbEntry → Bool) (l : List TlbEntry) (x : TlbEntry) : List TlbEntry :=
  let l := l.filter (fun y => decide (y ≠ x))
  let l := if (l.filter same).length < n then l
    else match l.find? same with
      | some y => l.erase y
      | none => l
  l ++ [x]

/-- The set of the cluster TLB that an entry falls in: 128 sets of 8 ways (R257), the index function free. -/
def TlbEntry.set (x : TlbEntry) : Nat := Config.tlbSet x.asid.toNat x.level x.page % 128

/-- The cluster TLB of a tile's cluster (R257). -/
def State.clusterTlb (s : State) (n : Nat) : List TlbEntry := Map.get [] s.ctlb (n / 4)

def State.addCluster (s : State) (n : Nat) (x : TlbEntry) : State :=
  { s with ctlb := Map.set s.ctlb (n / 4) (tlbAdd 8 (fun y => decide (y.set = x.set)) (s.clusterTlb n) x) }

def State.addTile (s : State) (n : Nat) (x : TlbEntry) : State :=
  s.setTile n { s.tile n with tlb := tlbAdd 64 (fun _ => true) (s.tile n).tlb x }

/-! ### Errors in TLB entries (R258) -/

/-- Removes the bad entries that an access would use; each leaves event 0x0503: 0 for a tile's TLB or 1 for a cluster's, and the entry's index
(R267). -/
def discardBad (s : State) (t : Tid) (cluster : Nat) (hit : TlbEntry → Bool) : Nat → List TlbEntry → State × List TlbEntry
  | _, [] => (s, [])
  | k, x :: r =>
    if x.bad && hit x then discardBad (s.event 0x0503 1 t.toNat [(1, cluster), (2, k)]) t cluster hit (k + 1) r
    else let (s, l) := discardBad s t cluster hit (k + 1) r; (s, x :: l)

/-- The TLBs that an access of va reads, without the entries found in error. -/
def State.scrub (s : State) (t : Tid) (hit : TlbEntry → Bool) : State :=
  let n := tileOf t
  let bad (l : List TlbEntry) : Bool := l.any (fun x => x.bad && hit x)
  let s := if bad (s.tile n).tlb then let (s, l) := discardBad s t 0 hit 0 (s.tile n).tlb; s.setTile n { s.tile n with tlb := l } else s
  if bad (s.clusterTlb n) then let (s, l) := discardBad s t 1 hit 0 (s.clusterTlb n); { s with ctlb := Map.set s.ctlb (n / 4) l } else s

/-! ### Broadcasts (R259 to R262) -/

/-- An entry that an INVAL.V operand removes (R259): page leaves and the pointers on the path to VA, or every entry of a space. -/
def invalMatches (op : Word) (x : TlbEntry) : Bool :=
  let w : World := if op.getLsbD 1 then .vault else .main
  let va := bitsOf op 14 40 * 16384
  let here := decide (x.page = va / 2 ^ coverBits x.level)
  let asid := decide (x.asid = BitVec.ofNat 12 (bitsOf op 2 12))
  decide (x.world = w) &&
    (match bitsOf op 62 2 with
      | 0 => here && asid
      | 1 => asid
      | 2 => true
      | _ => here)

/-- Tile n has removed x for a broadcast in progress, so it does not take x again from a cluster TLB that has yet to remove it (R260, R261). -/
def State.removedFor (s : State) (n : Nat) (x : TlbEntry) : Bool :=
  s.invals.any (fun i => i.gone.any (fun g => decide (g.1 = n)) && invalMatches i.operand x)

/-- The entries of the cluster TLB that tile n may use. -/
def State.clusterView (s : State) (n : Nat) : List TlbEntry := (s.clusterTlb n).filter (fun x => !s.removedFor n x)

/-- A walk's outcome. -/
inductive WalkAns where
  | leaf (x : TlbEntry)
  | exc (cause detail : Nat)
  | wait
  | lost
  deriving DecidableEq, Repr

/-- The walk of R247 from level lv with table address tb; `spec` is a speculative walk (R182, R265), which moves no line of the L2. A walk reads
memory as everyone sees it, without the thread's own stores that are not yet visible: DESIGN CHOICE (log entry 41). It keeps the pointers that it
reads (R257). -/
def walkFrom (s : State) (t : Tid) (w : World) (asid : BitVec 12) (va : Nat) (spec : Bool) : Nat → Nat → Nat → State × WalkAns
  | 0, lv, _ => (s, .exc 0x09 lv)
  | k + 1, lv, tb =>
    let a := tb + 16 * (va / 2 ^ coverBits lv % 1024)
    if !s.isDram a then (s, .exc 0x0B lv)
    else if s.heldByOther (some t) (a / 64) then (s, .wait)
    else
      match s.gateAccess (.tile t) a true false none with
      | (s', .deny _ _ _) =>
        if spec then (s, .exc 0x0C lv)
        else (s'.event 0x0502 1 t.toNat [(1, (s'.gateOf a).getD 0), (8, a)], .exc 0x0C lv)
      | (s', _) =>
        let s := if spec then s else s'
        if s.inError (a / 64) then
          ((if spec then s.startRepair (a / 64) else s.foundError (.tile t) (a / 64)).event 0x0501 1 t.toNat [(8, a), (2, t.toNat)], .exc 0x0C lv)
        else
          match (if spec then (s, false) else touchLines s t [a / 64]) with
          | (s, true) => (s, .lost)
          | (s, false) =>
            let s := s.mediaRead (a / 64)
            let e : Word := BitVec.ofNat 64 (granBytes (s.granuleAt (a / 16)) 0 8)
            if !e.getLsbD 0 || malformed e lv then (s, .exc 0x09 lv)
            else
              let x : TlbEntry :=
                { asid := asid, world := w, level := lv, page := va / 2 ^ coverBits lv, leaf := e.getLsbD 46, entry := e, bad := false }
              if e.getLsbD 46 then (s, .leaf x) else walkFrom (s.addCluster (tileOf t) x) t w asid va spec k (lv + 1) (entryPa e)

/-- The deepest cached pointer on the path to va (R257). -/
def deepest : List TlbEntry → Option TlbEntry
  | [] => none
  | x :: r =>
    match deepest r with
    | some y => if y.level < x.level then some x else some y
    | none => some x

/-- Where a leaf was found. -/
inductive Found where
  | tile | cluster | table
  deriving DecidableEq, Repr

/-- The tile TLB, the cluster TLB, or a walk from the deepest cached pointer (R247, R257). A walk that must wait is made, and counted,
when the access is issued again (R266). TLBMISS and WALKS count no PREF and no speculative access: DESIGN CHOICE (R250, log entry 41). -/
def State.lookup (s : State) (t : Tid) (w : World) (troot : Word) (va : Nat) (spec : Bool) : State × WalkAns × Found :=
  let n := tileOf t
  let asid := asidOf troot
  let hit (x : TlbEntry) : Bool := x.covers asid w va
  let s := s.scrub t hit
  match (s.tile n).tlb.find? (fun x => x.leaf && hit x) with
  | some x => (s, .leaf x, .tile)
  | none =>
    let s0 := s
    let s := if spec then s else s.modThr t (fun th => { th with tlbmiss := th.tlbmiss + 1 })
    match (s.clusterView n).find? (fun x => x.leaf && hit x) with
    | some x => (s, .leaf x, .cluster)
    | none =>
      let s := if spec then s else s.modThr t (fun th => { th with walks := th.walks + 1 })
      match (match deepest ((s.clusterView n).filter (fun x => !x.leaf && hit x)) with
        | some p => walkFrom s t w asid va spec (3 - p.level) (p.level + 1) (entryPa p.entry)
        | none => walkFrom s t w asid va spec 4 0 (bitsOf troot 14 32 * 16384)) with
      | (_, .wait) => (s0, .wait, .table)
      | (s, r) => (s, r, .table)

/-- The TLBs take a leaf whose translation did not fault (R257, R258). -/
def State.fillTlb (s : State) (n : Nat) (x : TlbEntry) : Found → State
  | .tile => s
  | .cluster => s.addTile n x
  | .table => (s.addCluster n x).addTile n x

/-- Whether a key's field of PKEYS refuses the access (R255). -/
def keyRefuses (pkeys : Quad) (key : Nat) (q : Want) : Bool :=
  match field pkeys (2 * key) 2 with
  | 0 => false
  | 1 => q.wr
  | 2 => q.rd || q.wr
  | _ => true

/-- Whether a physical address is treated as Device whatever the page names (R31). -/
def deviceRange (pa : Nat) : Bool := decide (0x3E0000000000 ≤ pa)

/-- Steps 2 to 6 of R254 on a leaf; a fetch from a Device page raises XLATE (R184). -/
def leafCheck (s : State) (w : World) (l : Level) (pkeys : Quad) (x : TlbEntry) (va : Nat) (q : Want) : TrAns :=
  let e := x.entry
  let size := 2 ^ coverBits x.level
  let pa := entryPa e / size * size + va % size
  let pworld : World := if e.getLsbD 5 then .vault else .main
  let ty := bitsOf e 6 2
  let inArea := s.isDurable pa
  let ptype : PageType := if deviceRange pa then .device else if ty = 0 then .normal else if ty = 1 then .durable else .device
  if pworld = .vault ∧ w = .main then .exc 0x09 4
  else if e.getLsbD 4 && decide (l = .user) then .exc 0x09 4
  else if (q.rd && !e.getLsbD 1) || (q.wr && !e.getLsbD 2) || (q.ex && !e.getLsbD 3) then .exc 0x09 4
  else if (decide (ty = 1) && !inArea) || (decide (ty ≠ 1) && inArea) then .exc 0x09 4
  else if q.ex && decide (ptype = .device) then .exc 0x09 4
  else if keyRefuses pkeys (bitsOf e 8 6) q then .exc 0x0A 4
  else .ok { pa := pa, ptype := ptype, world := pworld }

/-- Identity mode (R252); an uninstalled address inside the Durable area has type Device there, which R166 refuses. -/
def identity (s : State) (w : World) (pkeys : Quad) (va : Nat) (q : Want) : TrAns :=
  let ptype : PageType := if !s.isDram va then .device else if s.isDurable va then .durable else .normal
  if va ≥ 0x400000000000 then .exc 0x09 4
  else if decide (ptype ≠ .durable) && s.isDurable va then .exc 0x09 4
  else if q.ex && decide (ptype = .device) then .exc 0x09 4
  else if keyRefuses pkeys 0 q then .exc 0x0A 4
  else .ok { pa := va, ptype := ptype, world := w }

/-- Check 6 of R48: the translation of va for a thread in world w at level l, through the root of that world (R250, R254). -/
def State.translateAs (s : State) (t : Tid) (w : World) (l : Level) (va : Nat) (q : Want) (spec : Bool) : State × TrAns :=
  let th := s.thr t
  let troot := th.troot w
  if !troot.getLsbD 12 then (s, identity s w th.pkeys va q)
  else
    match s.lookup t w troot va spec with
    | (s, .leaf x, f) =>
      (match leafCheck s w l th.pkeys x va q with
        | .ok y => (s.fillTlb (tileOf t) x f, .ok y)
        | r => (s, r))
    | (s, .exc c d, _) => (s, .exc c d)
    | (s, .wait, _) => (s, .wait)
    | (s, .lost, _) => (s, .lost)

end Sys2Proof.Machine
end

