-- ==== Sys2Proof/Machine/Dma.lean ====
section
/-! DEFINITION. PORTDMA: the port engine's reads and writes of message and ring capabilities (R324, R325). -/

namespace Sys2Proof.Machine

/-- What a PORTDMA check finds: the physical segments, a failing check's cause and the transfer's lowest byte address, or a held line. -/
inductive DmaAns where
  | ok (segs : List (Nat × Nat))
  | error (cause addr : Nat)
  | wait
  deriving DecidableEq, Repr

/-- The walk of R247 for PORTDMA, which keeps no translation (R324). -/
def dmaWalk (s : State) (w : World) (va : Nat) : Nat → Nat → Nat → State × WalkAns
  | 0, lv, _ => (s, .exc 0x09 lv)
  | k + 1, lv, tb =>
    let a := tb + 16 * (va / 2 ^ coverBits lv % 1024)
    if !s.isDram a then (s, .exc 0x0B lv)
    else if s.heldByOther none (a / 64) then (s, .wait)
    else
      match s.gateAccess .portdma a true false none with
      | (s, .deny _ _ _) => (s, .exc 0x0C lv)
      | (s, _) =>
        if s.inError (a / 64) then (s.foundError .portdma (a / 64), .exc 0x0C lv)
        else
          let s := s.mediaRead (a / 64)
          let e : Word := BitVec.ofNat 64 (granBytes (s.granuleAt (a / 16)) 0 8)
          if !e.getLsbD 0 || malformed e lv then (s, .exc 0x09 lv)
          else if e.getLsbD 46 then
            (s, .leaf { asid := 0, world := w, level := lv, page := va / 2 ^ coverBits lv, leaf := true, entry := e, bad := false })
          else dmaWalk s w va k (lv + 1) (entryPa e)

/-- Steps 1 to 5 of R254 as a user-level access of the listener's world, without protection keys (R324). -/
def dmaTranslate (s : State) (w : World) (troot : Word) (va : Nat) (q : Want) : State × TrAns :=
  if !troot.getLsbD 12 then (s, identity s w 0 va q)
  else
    match dmaWalk s w va 4 0 (bitsOf troot 14 32 * 16384) with
    | (s, .leaf x) => (s, leafCheck s w .user 0 x va q)
    | (s, .exc c d) => (s, .exc c d)
    | (s, .wait) => (s, .wait)
    | (s, .lost) => (s, .lost)

/-- How one granule answers PORTDMA. -/
inductive DmaGran where
  | ok
  | error (cause : Nat)
  | wait
  deriving DecidableEq, Repr

/-- The checks of one granule that PORTDMA reaches at a physical address, with the buffer's colour: a held line waits (R180); the colour is compared at
the L2 slice where that holds the line, which is free, otherwise at the gate where the region enables it, and not for a line in error (R54, R58); then
the gate and the refusals, the Durable area (R167) and media integrity. -/
def State.dmaGranule (s : State) (colour : BitVec 4) (a : Nat) (wr : Bool) : State × DmaGran :=
  let g := s.granuleAt (a / 16)
  let line := a / 64
  let whole := s.isDram a && !s.inError line
  let held := whole && Config.l2Holds line s.fresh
  let s := { s with fresh := s.fresh + 1 }
  if s.heldByOther none line then (s, .wait)
  else if held && decide (colour ≠ g.colour) && decide (g.colour ≠ 15) then (s, .error 0x07)
  else
    match s.verdict .portdma a (!wr) wr (if whole && !held then some (colour, g.colour) else none) with
    | (s, .denied c) => (s, .error (if c then 0x07 else 0x17))
    | (s, .refused _) => (s, .error 0x17)
    | (s, .pass) =>
      if wr && s.isDurable a then (s.event 0x0609 4 0 [(1, masterCode .portdma), (8, a)], .error 0x0D)
      else if s.isDram a && s.inError line then (s.foundError .portdma line, .error 0x18)
      else (s.mediaRead line, .ok)

/-- The checks of one granule-sized part, in the order of R324: translation, page rights, then the granule. -/
def dmaPart (s : State) (p : Port) (c : Cap) (va : Nat) (q : Want) : State × Except Nat (Option Nat) :=
  match dmaTranslate s p.world p.troot (va % vaSpace) q with
  | (s, .exc c _) => (s, .error c)
  | (s, .wait) => (s, .ok none)
  | (s, .lost) => (s, .ok none)
  | (s, .ok x) =>
    if (decide (x.ptype = .device) && !c.has .dev) || (decide (x.world = .vault) && !c.has .vault) then (s, .error 0x05)
    else
      match s.dmaGranule c.colour x.pa q.wr with
      | (s, .ok) => (s, .ok (some x.pa))
      | (s, .error e) => (s, .error e)
      | (s, .wait) => (s, .ok none)

/-- The checks of every part. -/
def dmaParts (s : State) (p : Port) (c : Cap) (q : Want) (first : Nat) : List (Nat × Nat) → State × DmaAns
  | [] => (s, .ok [])
  | (va, n) :: r =>
    match dmaPart s p c va q with
    | (s, .error e) => (s, .error e first)
    | (s, .ok none) => (s, .wait)
    | (s, .ok (some pa)) =>
      match dmaParts s p c q first r with
      | (s, .ok l) => (s, .ok ((pa, n) :: l))
      | x => x

/-- Every check of a transfer of n bytes at address a through capability c of port p (R324, R325). -/
def State.dmaCheck (s : State) (p : Port) (c : Cap) (a n : Nat) (wr : Bool) : State × DmaAns :=
  if !c.tag then (s, .error 0x03 a)
  else if c.seal ≠ 0 then (s, .error 0x06 a)
  else if !c.has (if wr then .st else .ld) then (s, .error 0x05 a)
  else if a < c.base ∨ c.top < a + n then (s, .error 0x04 a)
  else dmaParts s p c ⟨!wr, wr, false⟩ a (segments a n)

/-- Reads checked segments: a read of a line in a LIVE plate's write set aborts that plate (R199). A register is read with the width of the piece:
DESIGN CHOICE, PORTDMA's widths are not given (log entry 43). -/
def dmaRead (s : State) : List (Nat × Nat) → State × List Byte
  | [] => (s, [])
  | (a, n) :: r =>
    let s := s.conflict none (a / 64) false
    let (s, d) := if s.isDram a then (s, s.segBytes a n) else let (s, v) := s.devRead .portdma a n; (s, leBytes n v)
    let (s, d') := dmaRead s r
    (s, d ++ d')

/-- Writes checked segments (R55, R199); register writes are posted, reserved addresses drop them (R30). -/
def dmaWrite (s : State) : List (Nat × List Byte) → State
  | [] => s
  | (a, d) :: r =>
    let s := s.conflict none (a / 64) true
    dmaWrite (if s.isDram a then s.applyWrite (.bytes a d) else s.postWrite .portdma (legalWidth a d.length) a d) r

end Sys2Proof.Machine
end

