-- ==== Sys2Proof/Machine/PortOps.lean ====
section
/-! DEFINITION. Conversation ports: transmit framing, TLS protection, release and transmission (R303, R306, R312, R319, R320), and how a
connection ends (R294, R297). -/

namespace Sys2Proof.Machine

/-! ### Sequence numbers -/

/-- a comes before b, mod 2^32 (RFC 9293). -/
def seqLt (a b : BitVec 32) : Bool := (a - b).msb
def seqLe (a b : BitVec 32) : Bool := decide (a = b) || seqLt a b

/-! ### Outgoing segments (R302, R303) -/

/-- The window field: the room, but never less than what is still open to the peer (RFC 9293). -/
def Port.windowField (p : Port) : Nat := min 65535 (max p.room p.tcb.rcvWnd / 2 ^ p.tcb.rcvScale)

/-- The port engine runs (R327). -/
def State.engineOn (s : State) : Bool := (s.rget .peCtrl).getLsbD 0

/-- A segment of the connection with its acknowledgement, window, SACK blocks and timestamps; a TCP header has room for four blocks, or for three
beside timestamps (RFC 2018). -/
def mkSegment (s : State) (p : Port) (seqNo : BitVec 32) (fin rst : Bool) (data : List Byte) : Segment :=
  { sport := p.lport, dport := p.rport, seqNo := seqNo, ackNo := p.tcb.rcvNxt, syn := false, ack := true, fin := fin, rst := rst,
    window := p.windowField, mss := none, wscale := none, sackOk := false,
    sacks := if p.tcb.sackOn then (p.tcb.held.map (fun h => (h.1, h.1 + BitVec.ofNat 32 h.2.length))).take (if p.tcb.tsOn then 3 else 4) else [],
    tstamp := if p.tcb.tsOn then some (BitVec.ofNat 32 (s.timeNow / 100000), p.tcb.tsRecent) else none, checksumOk := true, data := data }

/-- The TTL or hop limit of PE_CTRL (R302, R327). -/
def State.hopsOut (s : State) (v6 : Bool) : Nat := if v6 then s.rfield .peCtrl 32 8 else s.rfield .peCtrl 40 8

/-- The headers of what MAC m sends (R302): PCP 0, no IP options, DF in IPv4, flow label 0. -/
def State.headerOut (s : State) (m : Nat) (dst : BitVec 48) (vlan : Option (BitVec 12)) (v6 : Bool) (src ipTo : Quad) : SentHeader :=
  { dst := dst, src := (s.rget (.macAddr m)).setWidth 48, vlan := vlan, pcp := 0, v6 := v6, ipSrc := src, ipDst := ipTo, dontFragment := !v6,
    hops := s.hopsOut v6, flowLabel := 0, options := 0 }

/-- The headers of a port's segments: its next hop (R302). -/
def State.portHeader (s : State) (p : Port) : SentHeader := s.headerOut p.mac p.peerMac p.vlan p.v6 p.laddr p.raddr

/-- Octets of a segment's TCP options, in whole words (RFC 9293, RFC 7323, RFC 2018). -/
def optionOctets (g : Segment) : Nat :=
  let n := (if g.mss.isSome then 4 else 0) + (if g.wscale.isSome then 3 else 0) + (if g.sackOk then 2 else 0) +
    (if g.tstamp.isSome then 10 else 0) + (if g.sacks.isEmpty then 0 else 2 + 8 * g.sacks.length)
  (n + 3) / 4 * 4

/-- Octets of the frame of a segment: the headers, the tag, the data, at least 60 of them, and the FCS. That MAC_CNT_7 counts tag, padding and FCS is
DESIGN CHOICE (log entry 47). -/
def frameOctets (h : SentHeader) (g : Segment) : Nat :=
  max 60 (14 + (if h.vlan.isSome then 4 else 0) + (if h.v6 then 40 else 20) + h.options + 20 + optionOctets g + g.data.length) + 4

/-- MAC m has sent a frame of so many octets (R331, R382). -/
def State.countSent (s : State) (m octets : Nat) : State :=
  let s := (s.rcount (.macCnt m 6)).active (88 + m / 2) 1 (blocks64 octets)
  s.rset (.macCnt m 7) (s.rget (.macCnt m 7) + BitVec.ofNat 64 octets)

/-- A segment leaves: the MAC counts it (R331), it carries the acknowledgement that was due, and RCV.WND rises to the window that it offers. A
SYN's window has no scale (RFC 7323). -/
def State.sendSegment (s : State) (n : Nat) (g : Segment) : State :=
  let h := s.portHeader (s.port n)
  let s := s.countSent (s.port n).mac (frameOctets h g)
  let s := s.modPort n (fun p =>
    { p with tcb := { p.tcb with ackDue := 0, rcvWnd := max p.tcb.rcvWnd (g.window * (if g.syn then 1 else 2 ^ p.tcb.rcvScale)) } })
  { s with out := s.out ++ [.segment n h g] }

/-- An acknowledgement with no data. -/
def State.sendAck (s : State) (n : Nat) : State := s.sendSegment n (mkSegment s (s.port n) (s.port n).tcb.sndNxt false false [])

/-- The peer may still send: its FIN has not come and the connection stands. -/
def Port.receives (p : Port) : Bool :=
  (decide (p.state = .handshake) || decide (p.state = .open) || decide (p.state = .closing)) && !p.finSeen && !p.gone

/-- Tells the peer of a window that has opened by half the ring or a full segment (RFC 9293). -/
def State.windowUpdate (s : State) (n : Nat) : State :=
  let p := s.port n
  if s.engineOn && p.receives && decide (p.tcb.rcvWnd + max 1 (min (p.ring / 2) p.tcb.mss) ≤ p.windowField * 2 ^ p.tcb.rcvScale) then s.sendAck n else s

/-- An RST of the connection. -/
def State.sendRst (s : State) (n : Nat) : State := s.sendSegment n (mkSegment s (s.port n) (s.port n).tcb.sndNxt false true [])

/-! ### How a connection ends (R294, R297, R320) -/

/-- A port that enters CLOSED with the RESET notice: placed entries are freed, those of a plate stay until it ends (R320). -/
def Port.toReset (p : Port) : Port :=
  { p with state := .closed, notice := .reset, noticeReturned := false, stream := [], cipher := [], resv := 0, skip := 0, skipDelim := false,
           txq := (p.txq.filter (fun e => e.plate.isSome)).map (fun e => { e with dead := true }), tcb := { p.tcb with held := [] } }

/-- The connection fails: RST is sent when `rst`, and the notice is RESET. From SYN_RCVD the port is FREE without a notice (R294). -/
def State.failPort (s : State) (n : Nat) (rst : Bool) : State :=
  let s := if rst then s.sendRst n else s
  if (s.port n).state = .synRcvd then s.modPort n (fun p => { Port.reset with bindno := p.bindno, gen := p.gen, consumed := p.consumed, soff := p.streamOffset })
  else (s.modPort n Port.toReset).offerPort n

/-- A PORTDMA transfer that fails: RST, notice RESET, event 0x0703, the counter and the vector (R325, R326, R331). -/
def State.descriptorError (s : State) (n cause addr : Nat) : State :=
  let s := (s.rcount (.peCnt 4)).event 0x0703 5 n [(2, n), (1, cause), (8, addr)]
  (s.raiseVecReg (.peVec 3)).failPort n true

/-- A FREE port again: RXCUR keeps its value (R299). -/
def State.freePort (s : State) (n : Nat) : State :=
  s.modPort n (fun p => { Port.reset with bindno := p.bindno, gen := p.gen, consumed := p.consumed, soff := p.streamOffset })

/-- CLOSED, once FINs have passed both ways (R294, R297): TIME-WAIT follows where the unit sent the first FIN. -/
def State.bothFins (s : State) (n : Nat) : State :=
  let p := s.port n
  if p.finSent && p.finRcvd && decide (p.state = .closing) then
    (s.modPort n (fun p => { p with state := .closed, timeWait := p.finFirst })).offerPort n
  else s

/-! ### Keys and TLS records (R306, R307) -/

def State.key (s : State) (k : Nat) : KeySlot := Map.get KeySlot.reset s.keys k

/-- The nonce of RFC 8446: the IV with the record's sequence number added mod 2 at its end. -/
def recordNonce (k : KeySlot) : BitVec 96 := k.iv ^^^ k.seqNo.setWidth 96

/-- A protected record: header, and the sealed content with its type. The slot's sequence number rises. -/
def sealRecord (s : State) (slot : Nat) (ct : Byte) (data : List Byte) : State × List Byte :=
  let k := s.key slot
  let n := data.length + 1 + 16
  let header := [(23 : Byte), 3, 3] ++ beBytes 2 n
  let body := Config.aeadSeal k.key k.aes256 (recordNonce k) header (data ++ [ct])
  (State.cryptoRecord { s with keys := Map.set s.keys slot { k with seqNo := k.seqNo + 1 } } slot n, header ++ body)

/-- Application data cut into records of up to 16,384 bytes. -/
def sealAll (s : State) (slot : Nat) : Nat → List Byte → State × List Byte
  | 0, _ => (s, [])
  | k + 1, d =>
    if d.isEmpty then (s, [])
    else
      let (s, a) := sealRecord s slot 23 (d.take 16384)
      let (s, b) := sealAll s slot k (d.drop 16384)
      (s, a ++ b)

/-- A decimal digit as ASCII. -/
def asciiDigit (n : Nat) : Byte := BitVec.ofNat 8 (0x30 + n % 10)

/-- The framing that the engine adds (R312). -/
def frameOut (conf : Word) (d : List Byte) : List Byte :=
  let n := d.length
  match confFraming conf with
  | 1 => beBytes 2 n ++ d
  | 2 => [asciiDigit (n / 1000), asciiDigit (n / 100), asciiDigit (n / 10), asciiDigit n] ++ d
  | 3 => beBytes 4 n ++ d
  | 4 => d ++ [confDelim conf]
  | _ => d

/-- The largest message that PSEND takes (R312); in HANDSHAKE a content type and 16,384 bytes (R306). -/
def Port.sendLimit (p : Port) : Nat :=
  if p.tls ∧ p.state = .handshake then 16385
  else if confFraming p.conf = 2 then min (confMaxFrame p.conf) 9999 else confMaxFrame p.conf

/-- The bytes of a message on the wire (R306, R312). -/
def wireBytes (s : State) (p : Port) (d : List Byte) : State × List Byte :=
  if !p.tls then (s, frameOut p.conf d)
  else if p.state = .handshake then
    match d, p.txSlot with
    | [], _ => (s, [])
    | ct :: r, none => (s, [ct, 3, 3] ++ beBytes 2 r.length ++ r)
    | ct :: r, some k => sealRecord s k ct r
  else
    match p.txSlot with
    | some k => let w := frameOut p.conf d; sealAll s k (w.length / 16384 + 1) w
    | none => (s, frameOut p.conf d)

/-! ### Release and transmission (R303, R319, R320) -/

/-- Marks the entries that are released, in order (R319): an entry leaves only after every one before it. -/
def releaseRun (durable : Nat) : List TxEntry → List TxEntry
  | [] => []
  | e :: r => if e.released || (decide (e.plate = none) && decide (e.need ≤ durable)) then { e with released := true } :: releaseRun durable r else e :: r

/-- The sequence number after the last byte that TCP has taken. -/
def takenEnd (p : Port) : BitVec 32 :=
  match (p.txq.filter (·.taken)).getLast? with
  | some e => e.startSeq + BitVec.ofNat 32 e.wire.length
  | none => p.tcb.sndNxt

/-- Replaces the first released entry that TCP has not taken. -/
def takeFirst (f : TxEntry → Option TxEntry) : List TxEntry → List TxEntry
  | [] => []
  | e :: r => if e.released && !e.taken then (match f e with
      | some e' => e' :: r
      | none => r) else e :: takeFirst f r

/-- TCP takes released entries in order: their bytes are read from memory and framed. -/
def takeEntries (s : State) (n : Nat) : Nat → State
  | 0 => s
  | k + 1 =>
    let p := s.port n
    if !(p.state = .open ∨ p.state = .handshake ∨ p.state = .closing) ∨ p.finSent then s
    else
      match p.txq.find? (fun e => e.released && !e.taken) with
      | none => s
      | some e =>
        match s.dmaCheck p e.cap e.cap.cursor e.len false with
        | (s, .wait) => s
        | (s, .error c a) => s.descriptorError n c a
        | (s, .ok segs) =>
          let (s, d) := dmaRead s segs
          let (s, w) := wireBytes s (s.port n) d
          let start := takenEnd (s.port n)
          let s := s.modPort n (fun p =>
            { p with txq := takeFirst (fun e => if w.isEmpty then none else some { e with taken := true, startSeq := start, wire := w }) p.txq,
                     txDone := if w.isEmpty then p.txDone + 1 else p.txDone, msgsOut := p.msgsOut + 1 })
          takeEntries s n k

/-- Wire bytes from a sequence number on, over the entries TCP has taken. -/
def bytesFrom (x : BitVec 32) : List TxEntry → List Byte
  | [] => []
  | e :: r =>
    if !e.taken then []
    else
      let stop := e.startSeq + BitVec.ofNat 32 e.wire.length
      if seqLe stop x then bytesFrom x r
      else e.wire.drop (if seqLt e.startSeq x then (x - e.startSeq).toNat else 0) ++ bytesFrom stop r

/-- The bytes that the peer's window and the congestion window still allow. -/
def Port.allowed (p : Port) : Nat := min p.tcb.cwnd p.tcb.sndWnd - (p.tcb.sndNxt - p.tcb.sndUna).toNat

/-- Sends new segments while the windows allow. -/
def sendNew (s : State) (n : Nat) : Nat → State
  | 0 => s
  | k + 1 =>
    let p := s.port n
    let d := bytesFrom p.tcb.sndNxt p.txq
    let len := min (min p.tcb.mss p.allowed) d.length
    if len = 0 then s
    else
      let s := s.sendSegment n (mkSegment s p p.tcb.sndNxt false false (d.take len))
      let s := s.modPort n (fun p =>
        let x := p.tcb.sndNxt + BitVec.ofNat 32 len
        let timed := if p.tcb.tsOn ∨ p.tcb.timed.isSome then p.tcb.timed else some (p.tcb.sndNxt, s.timeNow)
        { p with tcb := { p.tcb with sndNxt := x, timed := timed },
                 txq := p.txq.map (fun e => if e.taken && seqLe (e.startSeq + BitVec.ofNat 32 e.wire.length) x then { e with sent := true } else e) })
      sendNew s n k

/-- The FIN of a CLOSE leaves once every entry queued before it has been sent (R297); a TLS port sends close_notify first. A later entry that TCP has
taken before is sent too, one that it has not taken never leaves: DESIGN CHOICE (log entry 47). -/
def State.sendFin (s : State) (n : Nat) : State :=
  let p := s.port n
  if p.closeReq && !p.finSent && p.txq.all (fun e => e.sent || (e.late && !e.taken)) && (decide (p.state = .closing) || decide (p.state = .open)) then
    let (s, alert) := match p.tls, p.txSlot with
      | true, some k => sealRecord s k 21 [1, 0]
      | _, _ => (s, [])
    let s := s.sendSegment n (mkSegment s p p.tcb.sndNxt true false alert)
    let s := s.modPort n (fun p => { p with finSent := true, finFirst := !p.finRcvd, state := .closing, finData := alert,
                                            tcb := { p.tcb with sndNxt := p.tcb.sndNxt + BitVec.ofNat 32 (alert.length + 1) } })
    s.bothFins n
  else s

/-- Sends the first unacknowledged segment again (R303, R324): the message is translated again, and a failing check is a descriptor error; a held line
makes it wait (R180). -/
def State.resend (s : State) (n : Nat) : State :=
  let p := s.port n
  let una := p.tcb.sndUna
  let d := (bytesFrom una p.txq).take (min p.tcb.mss (p.tcb.sndNxt - una).toNat)
  if d.isEmpty then
    (if p.finSent ∧ una ≠ p.tcb.sndNxt then
      s.sendSegment n (mkSegment s p (p.tcb.sndNxt - BitVec.ofNat 32 (p.finData.length + 1)) true false p.finData)
    else s)
  else
    match p.txq.find? (fun e => e.taken && seqLt una (e.startSeq + BitVec.ofNat 32 e.wire.length)) with
    | none => s
    | some e =>
      match s.dmaCheck p e.cap e.cap.cursor e.len false with
      | (s, .error c a) => s.descriptorError n c a
      | (s, .wait) => s.modPort n (fun p => { p with resendDue := true })
      | (s, .ok _) => s.sendSegment n (mkSegment s p una false false d)

/-- A segment to send again that has met a held line (R180). -/
def State.retryResend (s : State) (n : Nat) : State :=
  if (s.port n).resendDue then (s.modPort n (fun p => { p with resendDue := false })).resend n else s

/-- Everything of port n that may leave now: release, taking, sending, the FIN; nothing while PE_CTRL.EN is 0 (R327). -/
def State.pumpPort (s : State) (n : Nat) : State :=
  let p := s.port n
  if p.state = .free ∨ p.gone ∨ !s.engineOn then s
  else
    let s := s.retryResend n
    let s := s.modPort n (fun p => { p with txq := releaseRun (s.rget .durableCsn).toNat p.txq })
    let s := takeEntries s n 4
    let q := s.port n
    let s := sendNew s n ((bytesFrom q.tcb.sndNxt q.txq).length + 1)
    s.sendFin n

/-- Several ports. -/
def pumpAll (s : State) : List Nat → State
  | [] => s
  | n :: r => pumpAll (s.pumpPort n) r

/-- The port has something that may have become free to leave: an entry, a FIN, a segment to send again. -/
def Port.sends (p : Port) : Bool := !p.txq.isEmpty || (p.closeReq && !p.finSent) || p.resendDue

/-- Every such port, after DURABLE_CSN has risen, or a plate has published or aborted (R203, R297, R319). -/
def State.releaseSends (s : State) : State := pumpAll s ((s.ports.filter (fun p => p.2.sends)).map (·.1))

end Sys2Proof.Machine
end

