-- ==== Sys2Proof/Machine/Journal.lean ====
section
/-! DEFINITION. Journal records and rings, commit points, durability, publishing, fallback, the drain to the drive and the fence check
(R192, R198, R202, R203, R216 to R226, R235, R239, R353). -/

namespace Sys2Proof.Machine

/-! ### Registers of the Etcher (R233, R234) -/

def State.nextCsn (s : State) : Nat := (s.rget .nextCsn).toNat
def State.durable (s : State) : Nat := (s.rget .durableCsn).toNat
def State.jposition (s : State) : Nat := (s.rget .jpos).toNat
/-- EMODE. -/
def State.emode (s : State) : Nat := s.rfield .etchStat 5 2
def State.setEmode (s : State) (m : Nat) : State := s.rsetField .etchStat 5 2 m
/-- ETCH_CTRL.MODE. -/
def State.etchMode (s : State) : Nat := s.rfield .etchCtrl 8 2
/-- A bit of ETCH_STAT. -/
def State.etchBit (s : State) (k : Nat) : Bool := (s.rget .etchStat).getLsbD k
def State.setEtchBit (s : State) (k : Nat) (b : Bool) : State := s.rsetField .etchStat k 1 (if b then 1 else 0)
/-- OPEN, PFAIL. -/
def State.journalOpen (s : State) : Bool := s.etchBit 8
def State.pfail (s : State) : Bool := s.etchBit 9

/-- The mirror target in effect (R343, R345). -/
def State.mirrorTarget (s : State) : Option UnitAddr :=
  if (s.rget .sdMirror).getLsbD 10 then some (BitVec.ofNat 10 (s.rfield .sdMirror 0 10)) else none

/-- A granule of the Durable area (R166). -/
def State.durableGranule (s : State) (g : Nat) : Bool := s.isDurable (16 * g)

/-! ### Records (R216 to R218) -/

/-- The plate takes a CSN (R192): it has written, or executed PRECV or PSEND, whatever their status. -/
def Plate.takesCsn (p : Plate) : Bool := !p.writes.isEmpty || p.tookRecv || p.tookSend

/-- The plate is journalled (R192). -/
def State.isJournalled (s : State) (p : Plate) : Bool := p.tookRecv || p.writes.any (fun w => s.durableGranule w.1)

/-- An entry (R217). -/
def entryBytes (kind gaddr : Nat) (x : Granule) : List Byte :=
  leBytes 8 (gaddr + (if x.tag then 2 ^ 42 else 0) + x.colour.toNat * 2 ^ 43 + kind * 2 ^ 47) ++ leBytes 16 x.data.toNat

/-- A record: header, CRC, entries (R216, R218). -/
def recordBytes (csn : Nat) (unit : UnitAddr) (tid flags fmt : Nat) (entries : List (List Byte)) : List Byte :=
  let head := leBytes 8 csn ++ leBytes 2 unit.toNat ++ leBytes 2 tid ++ leBytes 2 entries.length ++ leBytes 2 flags
    ++ leBytes 4 fmt ++ List.replicate 8 0
  let body := entries.flatten
  head ++ leBytes 4 (crc32c (head ++ body)).toNat ++ body

/-- The entries of a write set and of receive cursors, in ascending GADDR order (R217). -/
def State.entries (s : State) (writes : List (Nat × Granule)) (cursors : List (Nat × Quad)) : List (List Byte) :=
  writes.map (fun w => entryBytes (if s.durableGranule w.1 then 0 else 1) w.1 w.2) ++
    cursors.map (fun c => entryBytes 2 (portEntry c.1 / 16) { data := c.2, tag := false, colour := 15 })

/-- The receive cursors that a plate publishes (R203, R211). -/
def State.plateCursors (s : State) (p : Plate) : List (Nat × Quad) :=
  p.consumed.map (fun c => (c.1, ((s.port c.1).afterConsume c.2).rxcur))

/-- A plate's record. -/
def State.plateRecord (s : State) (t : Tid) (csn : Nat) : List Byte :=
  let p := s.plate t
  recordBytes csn s.unitAddr t.toNat ((if p.tookRecv then 1 else 0) + (if p.handover then 2 else 0)) (s.rfield .fmtid 0 32)
    (s.entries p.writes (s.plateCursors p))

/-- The length of a plate's record (R216). -/
def Plate.recordLen (p : Plate) : Nat := 32 + 24 * (p.writes.length + p.consumed.length)

/-! ### Rings (R220, R221) -/

def ownRing : Nat := 0x3E0000000000
def mirrorRing : Nat := 0x3E0000800000
def ringSize : Nat := 0x800000

/-- The drive's journal ring in bytes (R221). -/
def State.driveRing (s : State) : Nat := (s.rget .jringBlocks).toNat * 4096

/-- TAIL_BYTES follows the append and drained positions (R222). -/
def State.setTail (s : State) : State := s.rset .tailBytes (BitVec.ofNat 64 (s.jposition - s.etch.drained))

/-- The record fits (R222): the tail's limit, and the drive's ring since the last completed proof. -/
def State.recordFits (s : State) (len : Nat) : Bool :=
  s.journalOpen && decide ((s.rget .tailBytes).toNat + len ≤ s.rfield .etchCtrl 17 7 * 65536) &&
    decide (s.jposition + len - s.etch.proofPos ≤ s.driveRing)

/-! ### Draining (R224, R226, R239) -/

/-- Errors in records of the own ring, given by CSN, position and length, are mended (R239): event 0x060A for each record met. -/
def mendRing (s : State) : List (Nat × Nat × Nat) → State
  | [] => s
  | (csn, pos, len) :: l =>
    let bad (k : Nat × Bool) : Bool := decide (ownRing / 64 ≤ k.1) && decide (k.1 < (ownRing + ringSize) / 64) &&
      (segsOf (pos % ringSize) (len / 16 + 3) len).any (fun x => decide ((ownRing + x.1 % ringSize) / 64 = k.1))
    if s.ue.any bad then mendRing (State.event { s with ue := s.ue.filter (fun k => !bad k) } 0x060A 4 0 [(8, csn)]) l
    else mendRing s l

/-- The records that R239 restores: those of CSNs not yet durable, from the plate buffer, and, in mirrored mode, the durable ones that are not yet
drained, from the partner. In fallback nothing restores a durable record, which stays as it is: DESIGN CHOICE (log entry 44). -/
def State.mendable (s : State) : List (Nat × Nat × Nat) :=
  (s.etch.recs.filter (·.journalled)).map (fun r => (r.csn, r.pos, r.len)) ++ (if s.emode = 0 then s.etch.undrained else [])

/-- A denied Etcher read of the tail (R372). -/
def tailDenied (s : State) : List (Nat × Nat) → State × Bool
  | [] => (s, false)
  | (a, _) :: r =>
    match s.gateAccess .etcher (ownRing + a % ringSize) true false none with
    | (s, .deny _ _ _) => (s, true)
    | (s, _) => tailDenied s r

/-- Issues the Write of the tail up to `upto` (R226); a denied read stops the drain (R372). -/
def State.issueRing (s : State) (upto : Nat) : State :=
  let e := s.etch
  if !s.journalOpen || s.halted || e.drainStopped || decide (upto ≤ e.writeIssued) then s
  else
    let s := mendRing s s.mendable
    match tailDenied s (segments (e.writeIssued % ringSize) (upto - e.writeIssued)) with
    | (s, true) => { s with etch := { s.etch with drainStopped := true } }
    | (s, false) => { s with etch := { s.etch with nvme := s.etch.nvme ++ [.ring upto], writeIssued := upto } }

/-- What an append starts: full blocks at once in mirrored mode, 64 KiB at once in NVMe-safe mode (R224, R226). -/
def State.kickDrain (s : State) : State :=
  if s.emode = 0 then s.issueRing (s.jposition / 4096 * 4096)
  else if s.etch.writeIssued + 65536 ≤ s.jposition then s.issueRing (s.etch.writeIssued + 65536) else s

/-! ### The fence (R353) -/

/-- LBA 0 of the own drive still holds a valid header with the unit's FMTID. -/
def State.fenceOk (s : State) : Bool :=
  match s.drive0.headerAt 0 with
  | some h => decide (h.fmtid = s.rget .fmtid)
  | none => false

/-- The unit stops assigning CSNs (R353). The FMTID found is what LBA 0 holds in the FMTID field. -/
def State.fenceStop (s : State) : State :=
  let found : Nat := blockField s.drive0.cells 0 8 8
  let s := { s with etch := { s.etch with fenced := true, proof := none, fenceDue := false,
                                          nvme := s.etch.nvme.filter (fun c => match c with
                                            | .ring _ => true
                                            | .spill => true
                                            | .zeroHeader => true
                                            | .repairRead _ => true
                                            | _ => false) } }
  ((s.setEtchBit 8 false).event 0x0808 7 0 [(8, found)]).raiseVecReg (.sdVec 3)

/-! ### Publishing and durability (R177, R202, R203, R224) -/

/-- Writes a write set as one event. -/
def publishWrites (s : State) : List (Nat × Granule) → State
  | [] => s
  | (g, x) :: r => publishWrites (s.setGranule g x) r

/-- Receive cursors advance past the messages taken. -/
def publishConsumed (s : State) : List (Nat × Nat) → State
  | [] => s
  | (n, k) :: r => publishConsumed ((s.modPort n (fun p => p.afterConsume k)).windowUpdate n) r

/-- Threads that waited for a held line are READY and issue their instruction again (R180, R181). -/
def State.wakeHeld (s : State) : State :=
  s.threadList.foldl (fun s n =>
    let t : Tid := BitVec.ofNat 9 n
    if (s.thr t).st = .parked (.heldLine true) ∨ (s.thr t).st = .parked (.heldLine false) then (s.modThr t (fun th => { th with resume := true })).makeReady t else s) s

/-- The transmit entries of plate t once it has published: they wait for its CSN (R203, R319); dead ones are freed (R320). -/
def ownSends (s : State) (t : Tid) (csn : Nat) : State :=
  let own (q : List TxEntry) : List TxEntry :=
    (q.filter (fun e => !(decide (e.plate = some t) && e.dead))).map
      (fun e => if e.plate = some t then { e with plate := none, need := csn } else e)
  { s with ports := s.ports.map (fun p => (p.1, { p.2 with txq := own p.2.txq })) }

/-- The plate record after its PCOMMIT (R187, R213). -/
def Plate.ended (p : Plate) (csn : Nat) : Plate :=
  { p with phase := .none, pdepth := 0, reads := [], writes := [], cleared := [], consumed := [], sends := [],
           tookRecv := false, tookSend := false, ports := [], handover := false, tally := 0, lastCsn := csn }

/-- The plate of thread t publishes and its PCOMMIT completes (R202, R203). -/
def State.publish (s : State) (t : Tid) : State :=
  let p := s.plate t
  if p.phase ≠ .held then s
  else
    let s := publishWrites s p.writes
    let s := { s with ue := s.ue.filter (fun k => !p.cleared.contains k.1) }
    let s := publishConsumed s p.consumed
    let s := if p.sends.isEmpty then s else ownSends s t p.csn
    let s := s.modThr t (fun th =>
      { th.wrInt p.commitRd (BitVec.ofNat 64 p.csn) with
        plate := p.ended p.csn })
    (s.complete t).wakeHeld

/-- What a plate of the unit itself publishes (R349): receive cursors and header granules. -/
def publishCursors (s : State) : List (Nat × Quad) → State
  | [] => s
  | (n, q) :: r =>
    publishCursors (s.modPort n (fun p =>
      { p with consumed := field q 0 64, gen := BitVec.ofNat 16 (field q 96 16), bindno := field q 112 16 })) r

/-- A CSN meets its condition (R224). -/
def JRec.ok (r : JRec) : Bool := !r.journalled || (if r.mirrored then r.acked else r.media)

/-- The durable prefix grows as far as its conditions are met; journalled plates publish in CSN order (R178, R202). -/
def durableRun (s : State) : List JRec → State
  | [] => { s with etch := { s.etch with recs := [] } }
  | r :: l =>
    if !r.ok then { s with etch := { s.etch with recs := r :: l } }
    else
      let s := s.rset .durableCsn (BitVec.ofNat 64 r.csn)
      let s := { s with etch := { s.etch with recs := l, undrained := if r.journalled && decide (s.etch.drained < r.pos + r.len) then s.etch.undrained ++ [(r.csn, r.pos, r.len)] else s.etch.undrained } }
      let s := match r.tid with
        | some t => if r.journalled then s.publish t else s
        | none => (publishCursors (publishWrites s r.writes) r.cursors).wakeHeld
      durableRun s l

/-- Advances durability; the first CSN that becomes durable in fallback waits for the fence check (R353). -/
def State.advance (s : State) : State :=
  match s.etch.recs with
  | [] => s.releaseSends
  | r :: _ =>
    if !r.ok || s.etch.fenced then s
    else if s.etch.fenceDue && decide (s.emode = 2) && !s.fenceOk then s.fenceStop
    else (durableRun { s with etch := { s.etch with fenceDue := false } } s.etch.recs).releaseSends

/-! ### Modes (R225, R234) -/

/-- The partner address of event 0x0602 (R235). -/
def State.partnerWord (s : State) : Nat :=
  match s.mirrorTarget with
  | some u => u.toNat
  | none => 0xFFFF

/-- Every CSN not yet durable now needs its Write, and the whole tail is written (R225, R234). -/
def State.nvmeSafe (s : State) : State :=
  let recs := s.etch.recs.map (fun r => { r with mirrored := false })
  let s := { s with etch := { s.etch with recs := recs } }
  (s.issueRing s.jposition).advance

/-- Fallback begins while the effective mode is mirrored (R225). -/
def State.fallback (s : State) : State :=
  if s.emode ≠ 0 then s
  else
    let s := (s.setEmode 2).setEtchBit 2 true
    let s := s.event 0x0602 4 0 [(1, 0), (2, s.partnerWord)]
    State.nvmeSafe { s with etch := { s.etch with fenceDue := true } }

/-- Fallback ends with a target: the next CSN is mirrored (R225). -/
def State.endFallback (s : State) : State :=
  if s.emode = 2 ∧ s.mirrorTarget.isSome then
    let s := s.setEmode 0
    let s := { s with etch := { s.etch with fenceDue := false } }
    s.event 0x0602 4 0 [(1, 1), (2, s.partnerWord)]
  else s

/-! ### Commit points (R192, R198) -/

/-- A 4 KiB block of the Durable area is dirty (R230). -/
def State.markDirty (s : State) (a : Nat) : State :=
  { s with etch := { s.etch with dirty := insertNat ((a - (s.rget .durBase).toNat) / 4096) s.etch.dirty } }

/-- The blocks of Durable granules are dirty. -/
def dirtyGranules (s : State) : List Nat → State
  | [] => s
  | g :: r => dirtyGranules (if s.durableGranule g then s.markDirty (16 * g) else s) r

/-- Appends a record to the own ring and dispatches it to the mirror (R221, R347). -/
def State.append (s : State) (r : JRec) (data : List Byte) : State :=
  let j := s.jposition
  let s := { s with mem := ringPut s.mem ownRing ringSize j data }
  let s := (s.rset .jpos (BitVec.ofNat 64 (j + data.length))).setTail
  let mirrored := decide (s.emode = 0)
  let s := { s with etch := { s.etch with recs := s.etch.recs ++ [{ r with pos := j, len := data.length, mirrored := mirrored }] } }
  let s := match mirrored, s.mirrorTarget with
    | true, some u => State.chainOut { s with etch := { s.etch with dispatched := j + data.length } } u (.mirror j data)
    | _, _ => s
  (s.active 99 (blocks64 data.length) 0).kickDrain

/-- A plate's transmit entries take their places, before those of plates that have not committed (R319). -/
def placeSends (s : State) (t : Tid) : State :=
  let held (e : TxEntry) : Bool := match e.plate with
    | some u => decide (u ≠ t) && decide ((s.plate u).phase ≠ .held)
    | none => false
  let order (q : List TxEntry) : List TxEntry :=
    q.filter (fun e => !held e && decide (e.plate ≠ some t)) ++ q.filter (fun e => decide (e.plate = some t)) ++ q.filter held
  { s with ports := s.ports.map (fun p => (p.1, { p.2 with txq := order p.2.txq })) }

/-- The threads whose LIVE or COMMITTING plate has one of the lines in its footprint (R198). -/
def State.meetsLines (s : State) (t : Tid) (lines : List Nat) : List Tid :=
  (s.threads.filter (fun p => p.2.plate.abortable && decide (BitVec.ofNat 9 p.1 ≠ t) && lines.any p.2.plate.footprint)).map
    (fun p => BitVec.ofNat 9 p.1)

/-- The commit point of thread t's plate (R198), its CSN's record, and what follows at once. -/
def State.commitPoint (s : State) (t : Tid) : State :=
  let p := s.plate t
  let csn := s.nextCsn
  let jr := s.isJournalled p
  let data := if jr then s.plateRecord t csn else []
  let s := s.rset .nextCsn (BitVec.ofNat 64 (csn + 1))
  let s := { s with etch := { s.etch with queue := s.etch.queue.filter (fun r => decide (r.who ≠ Committer.thread t)) } }
  let s := s.modThr t (fun th => { th with plate := { th.plate with phase := .held, csn := csn } })
  let s := s.abortAll .conflict (s.meetsLines t p.writeLines)
  let s := if p.sends.isEmpty then s else placeSends s t
  let s := s.chargePlate t true data.length
  let r : JRec := { csn := csn, tid := some t, writes := [], cursors := [], journalled := jr, pos := 0, len := 0, mirrored := false, acked := false,
                    media := false }
  if jr then ((dirtyGranules s (p.writes.map (·.1))).append r data).advance
  else (State.publish { s with etch := { s.etch with recs := s.etch.recs ++ [r] } } t).advance

/-- The length of the record of a plate of the unit itself: one entry (R216, R349). -/
def ownRecordLen : Nat := 56

/-- The length of the record that a request is for. -/
def State.requestLen (s : State) : Committer → Nat
  | .thread t => (s.plate t).recordLen
  | _ => ownRecordLen

/-- The request that takes its commit point next (R198, R208): the oldest that can proceed. A journalled request needs journal space and no
earlier journalled request. -/
def nextRequest (s : State) : Bool → List Request → Option Committer
  | _, [] => none
  | waits, r :: l =>
    if !r.journalled then some r.who
    else if !waits && s.recordFits (s.requestLen r.who) then some r.who
    else nextRequest s true l

/-- The sequencer assigns CSNs (R23, R236, R353). -/
def State.sequencerRuns (s : State) : Bool := !s.halted && !s.pfail && !s.etch.fenced

/-- Commit points of plates that take no CSN go on too (R23, R192, R236). -/
def State.emptyCommits (s : State) : Bool := !s.halted && !s.pfail

/-- A request of the unit itself arrives at the sequencer (R198, R349). -/
def State.requestOwn (s : State) (w : Committer) : State :=
  { s with etch := { s.etch with queue := s.etch.queue ++ [{ who := w, journalled := true }] } }

/-! ### What HELD plates have written (R198, R349) -/

/-- A port's receive cursor after every plate that is HELD (R299). -/
def State.pendingRxcur (s : State) (n : Nat) : Quad :=
  match (s.etch.recs.filter (·.tid.isNone)).reverse.findSome? (fun r => (r.cursors.find? (fun c => decide (c.1 = n))).map (·.2)) with
  | some q => q
  | none =>
    (s.threads.foldl (fun (p : Port) x =>
      if x.2.plate.phase = .held then (x.2.plate.consumed.filter (fun c => decide (c.1 = n))).foldl (fun p c => p.afterConsume c.2) p else p) (s.port n)).rxcur

/-- A granule after every plate that is HELD. -/
def State.pendingGranule (s : State) (g : Nat) : Granule :=
  match (s.etch.recs.filter (·.tid.isNone)).reverse.findSome? (fun r => Map.find r.writes g) with
  | some x => x
  | none =>
    match s.threads.findSome? (fun x => if x.2.plate.phase = .held then Map.find x.2.plate.writes g else none) with
    | some x => x
    | none => s.granuleAt g

/-- A plate of the unit itself commits (R198, R349): its record carries FLAGS.HANDOVER when `ho`, its lines are held and conflict as any plate's. The TID
field of such a record is not given: a free value. -/
def State.commitInternal (s : State) (ho : Bool) (writes : List (Nat × Granule)) (cursors : List (Nat × Quad)) : State :=
  let csn := s.nextCsn
  let (s, w) := s.freeWord
  let data := recordBytes csn s.unitAddr (w.toNat % 512) (if ho then 2 else 0) (s.rfield .fmtid 0 32) (s.entries writes cursors)
  let s := s.rset .nextCsn (BitVec.ofNat 64 (csn + 1))
  let r : JRec := { csn := csn, tid := none, writes := writes, cursors := cursors, journalled := true, pos := 0, len := 0, mirrored := false, acked := false,
                    media := false }
  let hit := (s.threads.filter (fun p => p.2.plate.abortable && r.ownLines.any p.2.plate.footprint)).map (fun p => BitVec.ofNat 9 p.1)
  let s := s.abortAll .conflict hit
  ((dirtyGranules s (writes.map (·.1))).append r data).advance

end Sys2Proof.Machine
end

