-- ==== Sys2Proof/Machine/RawRings.lean ====
section
/-! DEFINITION. The raw rings of the MACs (R304, R305, R329, R330): descriptors and buffers in physical memory as PORTDMA reaches them. -/

namespace Sys2Proof.Machine

/-- A raw descriptor (R305). -/
structure RawDesc where
  buf : Nat
  len : Nat
  flags : Nat
  tci : Nat
  deriving DecidableEq, Repr

def RawDesc.own (d : RawDesc) : Bool := d.flags % 2 = 1
def RawDesc.vlan (d : RawDesc) : Bool := d.flags / 4 % 2 = 1
def RawDesc.colour (d : RawDesc) : BitVec 4 := BitVec.ofNat 4 (d.flags / 16 % 16)

/-- A ring's length and a descriptor's address. -/
def State.rawSize (s : State) (tx : Bool) (m : Nat) : Nat := (s.rget (.rawLen tx m)).toNat
def State.rawSlot (s : State) (tx : Bool) (m : Nat) : Nat := (s.rget (.rawBase tx m)).toNat + 16 * ((s.rget (.rawHead tx m)).toNat % s.rawSize tx m)

/-- The ring stopped at a descriptor that software still owns (R330). -/
def rawKey (tx : Bool) (m : Nat) : Nat := 2 * m + (if tx then 1 else 0)
def State.rawIsStopped (s : State) (tx : Bool) (m : Nat) : Bool := Map.get false s.rawStopped (rawKey tx m)
def State.setRawStopped (s : State) (tx : Bool) (m : Nat) (b : Bool) : State := { s with rawStopped := Map.put false s.rawStopped (rawKey tx m) b }

/-- The checks of every part of a buffer, with the descriptor's colour (R54, R305). -/
def rawCheck (s : State) (colour : BitVec 4) (wr : Bool) : List (Nat × Nat) → State × DmaGran
  | [] => (s, .ok)
  | (a, _) :: r =>
    match s.dmaGranule colour a wr with
    | (s, .ok) => rawCheck s colour wr r
    | x => x

/-- What a read of a ring's head descriptor finds. -/
inductive RawHead where
  | desc (d : RawDesc)
  | error
  | wait
  deriving DecidableEq, Repr

/-- The descriptor at a ring's head (R305, R180). -/
def State.rawHeadDesc (s : State) (tx : Bool) (m : Nat) : State × RawHead :=
  match s.busRead .portdma (s.rawSlot tx m) 16 with
  | (s, .ok, d) =>
    (s, .desc { buf := leValue (d.take 8) % 2 ^ 46, len := leValue (sliceBytes d 8 2), flags := leValue (sliceBytes d 10 2), tci := leValue (sliceBytes d 12 2) })
  | (s, .wait, _) => (s, .wait)
  | (s, .error, _) => (s, .error)

/-- A completed descriptor: OWN cleared, LEN, FLAGS, TCI and STATUS written, the head moved on. Its line has just been read, so it is not held; a write
that a gate denies or that meets an error is lost, and the head moves on: DESIGN CHOICE (log entry 43). -/
def State.rawComplete (s : State) (tx : Bool) (m : Nat) (d : RawDesc) (len : Nat) (vlan : Option (BitVec 12)) (status : Nat) : State :=
  let v := match vlan with
    | some v => (4, v.toNat)
    | none => if tx then (d.flags / 4 % 2 * 4, d.tci) else (0, 0)
  let flags := v.1 + (if status = 0 then 0 else 2) + d.flags / 16 % 16 * 16
  let bytes := leBytes 8 d.buf ++ leBytes 2 len ++ leBytes 2 flags ++ leBytes 2 v.2 ++ leBytes 2 status
  let (s, _) := s.busWrite .portdma (s.rawSlot tx m) bytes
  s.rset (.rawHead tx m) (BitVec.ofNat 64 (((s.rget (.rawHead tx m)).toNat + 1) % s.rawSize tx m))

/-- The 802.1Q tag of a frame to send. -/
def tagged (d : RawDesc) (data : List Byte) : List Byte := if d.vlan then data.take 12 ++ [0x81, 0] ++ beBytes 2 (d.tci % 4096) ++ data.drop 12 else data

/-- Sends what the raw transmit ring of MAC m holds, for n descriptors at most. -/
def rawSend (s : State) (m : Nat) : Nat → State
  | 0 => s
  | n + 1 =>
    if s.rawSize true m = 0 ∨ s.rawIsStopped true m ∨ !(s.rget .peCtrl).getLsbD 0 ∨ (s.rget (.rawTail true m)).toNat % s.rawSize true m = (s.rget (.rawHead true m)).toNat then s
    else
      match s.rawHeadDesc true m with
      | (s, .wait) => s
      | (s, .error) => s
      | (s, .desc d) =>
        if !d.own then s.setRawStopped true m true
        else
          let segs := segments d.buf d.len
          match rawCheck s d.colour false segs with
          | (s, .wait) => s
          | (s, .error _) => rawSend (s.rawComplete true m d d.len none 2) m n
          | (s, .ok) =>
            let (s, data) := dmaRead s segs
            let s := s.countSent m (max 60 (tagged d data).length + 4)
            let s := { s with out := s.out ++ [Output.rawFrame m (tagged d data)] }
            rawSend (s.rawComplete true m d d.len none 0) m n

/-- A write of a ring's TAIL: the ring runs again (R330). -/
def State.writeRawTail (s : State) (tx : Bool) (m : Nat) (v : Word) : State :=
  let s := (s.rset (.rawTail tx m) v).setRawStopped tx m false
  if tx then rawSend s m 4096 else s

/-- A frame goes to a MAC's raw receive ring (R304, R305, R330): delivered whole, too long, a DMA error, or dropped; or it waits for a held line
(R180). A descriptor that cannot be read drops the frame and stays at the head: DESIGN CHOICE (log entry 43). -/
def State.rawTry (s : State) (m : Nat) (vlan : Option (BitVec 12)) (data : List Byte) : Option State :=
  let drop (s : State) : Option State := some (s.rcount (.macCnt m 5))
  if s.rawSize false m = 0 ∨ s.rawIsStopped false m ∨ (s.rget (.rawTail false m)).toNat % s.rawSize false m = (s.rget (.rawHead false m)).toNat then drop s
  else
    match s.rawHeadDesc false m with
    | (_, .wait) => none
    | (s, .error) => drop s
    | (s, .desc d) =>
      if !d.own then drop (s.setRawStopped false m true)
      else
        let done (s : State) (status : Nat) : Option State := some ((s.rawComplete false m d data.length vlan status).raiseVecReg (.peVec 0))
        if d.len < data.length then done s 1
        else
          let segs := segments d.buf data.length
          match rawCheck s d.colour true segs with
          | (_, .wait) => none
          | (s, .error _) => done s 2
          | (s, .ok) => done ((dmaWrite s (chunk segs data)).rcount (.macCnt m 4)) 0

/-- A frame for the raw receive ring of MAC m, after those that wait there (R180, R330). -/
def State.rawReceive (s : State) (m : Nat) (vlan : Option (BitVec 12)) (data : List Byte) : State :=
  let wait : RawWait := { mac := m, vlan := vlan, data := data }
  if s.rawWaits.any (fun w => decide (w.mac = m)) then { s with rawWaits := s.rawWaits ++ [wait] }
  else (s.rawTry m vlan data).getD { s with rawWaits := s.rawWaits ++ [wait] }

/-- The waiting frames are tried again in order: a MAC's later frames wait behind one that still waits. -/
def retryRaw (s : State) (blocked : List Nat) : List RawWait → State
  | [] => s
  | w :: r =>
    let keep (s : State) : State := { s with rawWaits := s.rawWaits ++ [w] }
    if blocked.contains w.mac then retryRaw (keep s) blocked r
    else
      match s.rawTry w.mac w.vlan w.data with
      | some s => retryRaw s blocked r
      | none => retryRaw (keep s) (w.mac :: blocked) r

/-- Everything that the raw rings can send and receive now. -/
def State.kickRaw (s : State) : State :=
  let s := if s.rawWaits.isEmpty then s else retryRaw { s with rawWaits := [] } [] s.rawWaits
  (List.range 8).foldl (fun s m => rawSend s m 4096) s

end Sys2Proof.Machine
end

