-- ==== Sys2Proof/Machine/Bellows.lean ====
section
/-! DEFINITION. Bellows: power domains, the energy ledger, plans, the PMBus correction and the thermal limits (R376 to R394). Energies are
integers in units of 1 fJ ÷ (2^19 × 100), in which every sum of R381 is whole. -/

namespace Sys2Proof.Machine

/-- A bit of BW_STAT set. -/
def State.setBwStat (s : State) (k : Nat) : State := s.rsetField .bwStat k 1 1

/-- BW_CTRL.EN, SUSTAIN_W, RESERVE. -/
def State.bwOn (s : State) : Bool := (s.rget .bwCtrl).getLsbD 0
def State.sustain (s : State) : Int := (s.rfield .bwCtrl 13 9 : Nat) * microJoule
def State.reserveLevel (s : State) : Int := (s.rfield .bwCtrl 22 10 * 1000 : Nat) * microJoule

/-- DOMCTL_d.FORCE. -/
def State.force (s : State) (d : Nat) : Nat := s.rfield (.domctl d) 0 2

/-- The step in effect. -/
def State.stepNow (s : State) : Nat := s.rfield .plan 0 2

/-! ### Domains (R379, R380, R394) -/

/-- Every thread of tile n is EMPTY. -/
def State.tileEmpty (s : State) (n : Nat) : Bool := (List.range 8).all (fun k => decide ((s.thr (BitVec.ofNat 9 (8 * n + k))).st = .empty))

/-- Some thread of tile n is READY or PARKED (R380). -/
def State.tileBusy (s : State) (n : Nat) : Bool :=
  (List.range 8).any (fun k => match (s.thr (BitVec.ofNat 9 (8 * n + k))).st with
    | .ready => true
    | .parked _ => true
    | _ => false)

/-- Work for a domain in RETENTION or OFF wakes it (R379). -/
def State.wakeDomain (s : State) (d : Nat) : State :=
  match s.power d with
  | .retention => s.setPower d .waking
  | .off => s.setPower d .waking
  | _ => s

/-- Tile n leaves the plan: RETENTION once its threads are EMPTY, its TLB discarded (R258, R380). -/
def State.retireTile (s : State) (n : Nat) : State :=
  if s.tileEmpty n && (decide (s.power n = .active) || decide (s.power n = .gated)) then
    State.setPower (s.setTile n { s.tile n with tlb := [] }) n .retention
  else s

/-- The plan's bit for tile n, with DOMCTL's hold and removal (R380, R394). -/
def State.inPlan (s : State) (n : Nat) : Bool :=
  decide (s.force n = 1) || ((s.rget .planTiles).getLsbD n && !(decide (s.force n = 2) && s.tileEmpty n))

/-- The tiles follow the plan; one that DOMCTL holds ACTIVE leaves its clock gating too (R394). -/
def State.followPlan (s : State) : State :=
  (List.range 64).foldl (fun s n =>
    if s.inPlan n then
      let s := (s.wakeDomain (64 + n / 4)).wakeDomain n
      if s.force n = 1 then s.wakeGated n else s
    else s.retireTile n) s

/-- A domain held ACTIVE or switched by its automatic rule: MAC pairs by MODE, Sudon ports by SD_CTRL.EN (R379). -/
def State.autoDomain (s : State) (d : Nat) : State :=
  let on := if 88 ≤ d ∧ d < 92 then decide (s.rfield (.macCtrl (2 * (d - 88))) 0 2 ≠ 0) || decide (s.rfield (.macCtrl (2 * (d - 88) + 1)) 0 2 ≠ 0)
    else (s.rget .sdCtrl).getLsbD 0
  if on || decide (s.force d = 1) then s.wakeDomain d else s.setPower d .off

/-- Every automatic rule of R379 that a register drives. -/
def State.autoDomains (s : State) : State := [88, 89, 90, 91, 92, 93, 94].foldl State.autoDomain s

/-- The journal SRAM's contents are lost: free values (R379). -/
def loseJournal (s : State) (g : Nat) : Nat → State
  | 0 => s
  | n + 1 =>
    let (s, a) := s.freeWord
    let (s, b) := s.freeWord
    loseJournal (s.setGranule g { data := b ++ a, tag := false, colour := 15 }) (g + 1) n

/-- A write of DOMCTL_d (R394). A memory controller that is OFF stays so until cold reset (R379). -/
def State.writeDomctl (s : State) (d : Nat) (v : Word) : State :=
  let s := s.rset (.domctl d) (fieldWrite (s.rget (.domctl d)) v ((RName.domctl d).fields s.i20))
  let f := s.force d
  if d < 64 then s.followPlan
  else if d = 96 then (if f = 2 then s.setPower 96 .off else s.wakeDomain 96)
  else if d = 99 then
    (if f = 2 then
      (if !(s.rget .etchStat).getLsbD 8 && !(s.rget .sdCtrl).getLsbD 1 && decide (s.power 99 ≠ .off) then
        (loseJournal s (0x3E0000000000 / 16) 0x100000).setPower 99 .off
      else s)
    else s.wakeDomain 99)
  else if f = 1 ∧ !(80 ≤ d ∧ d < 88) then s.wakeDomain d else s

/-! ### Plans (R376, R387, R388, R393) -/

/-- The set-point of a step in mV, with the store's trim (R376, R395). -/
def State.setPoint (s : State) (step : Nat) : Nat :=
  let base := if step = 0 then 650 else if step = 1 then 720 else if step = 2 then 800 else 850
  if s.cal.defaults then base
  else (((base : Nat) : Int) + (BitVec.ofNat 32 (leValue (bytesAt s.cal.page (0x1C + 4 * step) 4))).toInt).toNat

/-- A step change (R376): upward the voltage first, then VR_SETTLE; downward the divider first. -/
def State.changeStep (s : State) (step : Nat) : State :=
  let now := s.stepNow
  let vr := (s.rget .pmbCfg).getLsbD 7
  if now < step ∧ vr then
    { s with bellows := { s.bellows with settling := some step, vout := s.bellows.vout ++ [s.setPoint step] },
             out := s.out ++ [.vout (s.setPoint step)] }
  else
    let s := (s.rsetField .plan 0 2 step)
    let s := { s with bellows := { s.bellows with settling := none } }
    if step < now ∧ vr then
      { s with bellows := { s.bellows with vout := s.bellows.vout ++ [s.setPoint step] }, out := s.out ++ [.vout (s.setPoint step)] }
    else s

/-- The number of tiles in a plan. -/
def countBits (w : Word) : Nat := ((List.range 64).filter (fun n => w.getLsbD n)).length

/-- The tiles with a non-EMPTY thread, which no plan removes (R380). -/
def State.tilesInUse (s : State) : Word := (List.range 64).foldl (fun w n => if s.tileEmpty n then w else w ||| (1 : Word) <<< n) (0 : Word)

/-- A plan takes effect (R387, R393). A tile that took a thread since the plan was formed stays in it (R380). -/
def State.applyPlan (s : State) (step parked : Nat) (tiles : Word) (emerg : Bool) : State :=
  let tiles := tiles ||| s.tilesInUse
  let p := s.rget .plan
  let p := withBits (withBits (withBits (withBits p 32 32 (bitsOf p 32 32 + 1)) 16 7 (countBits tiles)) 8 2 parked) 2 1 (if emerg then 1 else 0)
  let s := (s.rset .plan p).rset .planTiles tiles
  (s.changeStep step).followPlan

/-- Step 1 of a tick: what falls due (R386, R388, R390, R392). -/
def State.duePlan (s : State) : State :=
  let b := s.bellows
  let s := { s with bellows := { b with planDue := none, emergencyDue := false } }
  let top := if b.thermalCap then 0 else s.rfield .bwCtrl 2 2
  if !s.bwOn then
    (if s.stepNow = top ∧ b.settling = none ∧ s.rget .planTiles = BitVec.allOnes 64 ∧ s.rfield .plan 8 2 = 0 then s
     else if b.settling = some top then s
     else s.applyPlan top 0 (BitVec.allOnes 64) false)
  else
    match b.planDue with
    | some (step, parked, tiles) => s.applyPlan (if b.thermalCap then 0 else step) parked tiles false
    | none =>
      if b.emergencyDue then
        let s := (s.applyPlan 0 3 (s.rget .planTiles) true).setBwStat 1
        s.event 0x0208 8 0xFFF [(8, s.timeNow)]
      else if b.thermalCap ∧ s.stepNow ≠ 0 then s.changeStep 0 else s

/-! ### The ledger (R381 to R386) -/

/-- The always-on constant, and a step's dynamic scale (R395, R397). -/
def State.aon (s : State) : Nat := if s.cal.defaults then Config.defaultConstant 0 else leValue (bytesAt s.cal.page 8 4)
def State.scale (s : State) (step : Nat) : Nat :=
  if s.cal.defaults then Config.defaultConstant (1 + step) else leValue (bytesAt s.cal.page (0x0C + 4 * step) 4)

/-- The instructions that tile n's threads have issued since the last tick (R382, R385). -/
def State.issuedOf (s : State) (n : Nat) : List (Nat × Nat) :=
  (s.threads.filter (fun x => decide (x.1 / 8 = n ∧ x.2.sinceTick ≠ 0))).map (fun x => (x.1, x.2.sinceTick))

/-- A domain's activity in a tick (R381, R382): A0 and A1 from outside; A2 and A3 as commands have brought them, with what no command shows: the misses of
tiles, L2, memory controllers, Sudon's idle flits, PCIe (log entry 49). -/
def State.activityOf (s : State) (a : TickInput) (d : Nat) : Activity :=
  let x := (a.acts.find? (fun x => decide (x.domain = d))).getD { domain := d, ticks := 0, a1 := 0, a2 := 0, a3 := 0 }
  let e := Map.get (0, 0) s.bellows.events d
  if d < 64 then { x with a2 := ((s.issuedOf d).map (·.2)).sum, a3 := e.2 + x.a3 }
  else if d < 88 ∨ (92 ≤ d ∧ d < 97) then { x with a2 := e.1 + x.a2, a3 := e.2 + x.a3 }
  else { x with a2 := e.1, a3 := e.2 }

/-- The energy of one domain in a tick, before CORR, in units of 1 fJ ÷ 800. -/
def State.domainEnergy (s : State) (a : Activity) : Nat :=
  let c := if a.domain < 80 then s.stepNow else 0
  let k (i : Nat) : Nat := s.coefficient a.domain c i
  match s.power a.domain with
  | .retention => 100 * k 0
  | .off => 0
  | _ => 8 * a.ticks * k 0 + 800 * (a.a1 * k 1 + a.a2 * k 2 + a.a3 * k 3)

/-- A tick's E, with CORR (R381). -/
def State.corrected (s : State) (e : Nat) : Int := (((s.rget .corr).toNat * e : Nat) : Int)

/-- A thread's share goes to its purse, or to its plate's tally (R385). Answers what was charged outside plates. -/
def chargeShare (s : State) (t : Tid) (share : Int) : State × Int :=
  let th := s.thr t
  if th.plate.pdepth = 0 then
    let b := s.bellows
    let g := th.tgrp.toNat
    ({ s with bellows := { b with purses := Map.put 0 b.purses g (Map.get 0 b.purses g - share) } }, share)
  else (s.modThr t (fun th => { th with plate := { th.plate with tally := th.plate.tally + share } }), 0)

/-- The shares of one tile's energy (R385): in proportion to the instructions issued, with the rounding that the spec leaves open. -/
def chargeTile (s : State) (e : Int) (total : Nat) : List (Nat × Nat) → State
  | [] => s
  | (t, n) :: r =>
    let (s, _) := chargeShare s (BitVec.ofNat 9 t) (ratio (e * (n : Nat)) (total : Nat))
    chargeTile s e total r

/-- The tallies of all plates together. -/
def State.tallies (s : State) : Int := s.threads.foldl (fun a p => a + p.2.plate.tally) 0

/-- Step 3 of a tick: the charges of the tiles' energies. -/
def chargeAll (s : State) : List Activity → State
  | [] => s
  | a :: r =>
    let mine := s.issuedOf a.domain
    chargeAll (if a.domain < 64 ∧ a.a2 ≠ 0 then chargeTile s (s.corrected (s.domainEnergy a)) a.a2 mine else s) r

/-- The counts start again for the next tick. -/
def State.nextTick (s : State) : State :=
  { s with threads := s.threads.map (fun (x : Nat × Thread) => (x.1, { x.2 with sinceTick := 0 })), bellows := { s.bellows with events := [] } }

/-- Step 2 of a tick: every purse rises (R385). -/
def State.refillPurses (s : State) : State :=
  { s with bellows := { s.bellows with
      purses := (List.range 16).foldl (fun m g =>
        let rate : Int := (s.rfield (.purseCfg g) 0 32 : Nat) * (microJoule / 1000)
        let cap : Int := (s.rfield (.purseCfg g) 32 32 : Nat) * microJoule
        Map.put 0 m g (min cap (Map.get 0 m g + rate))) s.bellows.purses } }

/-- The bucket after a tick of energy e (R384); a level that reaches 0 calls for the emergency plan (R388). -/
def State.refillBucket (s : State) (e : Int) : State :=
  let level := min s.reserveLevel (max 0 (s.bellows.bucket + s.sustain - e))
  { s with bellows := { s.bellows with bucket := level, energy := s.bellows.energy + e, msEstimate := s.bellows.msEstimate + e,
                                       emergencyDue := s.bellows.emergencyDue || (s.bwOn && decide (level = 0 ∧ s.bellows.bucket ≠ 0)) } }

/-! ### Thermal limits (R390) -/

/-- A sensor's reading. -/
def State.temp (s : State) (k : Nat) : Int := (BitVec.ofNat 16 (s.rfield (.temp k) 0 16)).toInt

/-- One sensor is read: the cap and the trip, which abandons a power-fail drain (R390, R448). -/
def State.readSensor (s : State) (k : Nat) (t : Int) : State :=
  let s := s.rset (.temp k) (BitVec.ofNat 64 (BitVec.ofInt 16 t).toNat)
  let hot := decide (((s.rget .tjHot).toNat * 4 : Nat) ≤ t)
  let s := if hot && !s.bellows.thermalCap then
      (State.event { s with bellows := { s.bellows with thermalCap := true } } 0x0203 8 k [(1, k), (2, (BitVec.ofInt 16 t).toNat)]).setBwStat 3
    else s
  if decide (460 ≤ t) && !s.thermTrip then
    State.event { s with thermTrip := true, halted := true, etch := { s.etch with draining := false, warmPending := false } } 0x0204 8 k [(1, k), (2, (BitVec.ofInt 16 t).toNat)]
  else s

/-- The pin THERMTRIP_N, low from the trip to PORST_N (R390). -/
def State.thermtripN (s : State) : Bool := !s.thermTrip

/-- The pin ALERT_N, low while a bit is set in both BW_STAT and BW_CTRL.ALERT_EN (R391). -/
def State.alertN (s : State) : Bool := decide (s.rfield .bwStat 0 5 &&& s.rfield .bwCtrl 48 5 = 0)

/-- The pin RPn_PERST_N, low while RP_CTRL.EN is 0 (R451). -/
def State.rpPerstN (s : State) (n : Nat) : Bool := (s.rget (.rpCtrl n)).getLsbD 0

/-- The 20 sensors. -/
def readSensors (s : State) : List (Nat × Int) → State
  | [] => s
  | (k, t) :: r => readSensors (if k < 20 then s.readSensor k t else s) r

/-- Double-bit errors of SRAM macros are reported: event 0x0303 with the block as SOURCE and in the payload, and the array index (R21, R22). That the
ledger tick finds them is DESIGN CHOICE (log entry 40). -/
def State.reportSram (s : State) : State :=
  s.sramErr.foldl (fun s e => s.event 0x0303 e.1 e.2.1 [(2, e.1 * 4096 + e.2.1 % 4096), (4, e.2.2)]) { s with sramErr := [] }

/-- A ledger tick (R381, R386). -/
def State.ledgerTick (s : State) (a : TickInput) : State :=
  let s := s.reportSram.rset .corr s.bellows.corrNext
  let s := (s.duePlan.followPlan.autoDomains).refillPurses
  let acts := (List.range 100).map (s.activityOf a)
  let e := s.corrected (acts.foldl (fun n x => n + s.domainEnergy x) (800 * s.aon))
  let before := s.tallies
  let s := (chargeAll s acts).nextTick
  let s := s.refillBucket e
  let s := { s with bellows := { s.bellows with msOther := s.bellows.msOther + (e - (s.tallies - before)) } }
  readSensors s a.temps

/-- Every sensor has been below TJ_HOT − 5 °C for 1 ms: the cap lifts (R390). Which sensor the event names is not given: free. -/
def State.liftCap (s : State) : State :=
  let limit : Int := (((s.rget .tjHot).toNat : Int) - 5) * 4
  if s.bellows.thermalCap && (List.range 20).all (fun k => decide (s.temp k < limit)) then
    let (s, w) := s.freeWord
    let k := w.toNat % 20
    State.event { s with bellows := { s.bellows with thermalCap := false } } 0x0203 8 k [(1, k), (2, s.rfield (.temp k) 0 16)]
  else s

/-! ### The millisecond plan (R387) -/

/-- Queued work of a class. -/
def State.depth (s : State) (c : Nat) : Nat :=
  if c = 0 then s.ports.foldl (fun n p => n + p.2.rxq.length) 0 else s.rfield (.qhint c) 0 32

/-- D[c]. -/
def State.demand (s : State) (c : Nat) : Nat := max (Map.get 0 s.bellows.committed c) (s.depth c)

/-- The classes that a PARKED code leaves running: 0 none parked, 2 class 3, 3 classes 2 and 3. -/
def running (parked : Nat) : List Nat := if parked = 0 then [0, 1, 2, 3] else if parked = 2 then [0, 1, 2] else [0, 1]

/-- E_other + Σ D[c] × EPP_c over the running classes. -/
def State.load (s : State) (parked : Nat) : Int :=
  (running parked).foldl (fun x c => x + (s.demand c : Nat) * Map.get 0 s.bellows.epp c) s.bellows.msOther

/-- The forecast fits: f ≤ avail, compared without rounding. -/
def State.fits (s : State) (step parked : Nat) (avail : Int) : Bool :=
  decide (s.load parked * (s.scale step : Nat) ≤ avail * (s.scale s.stepNow : Nat))

/-- The step codes of this ordering code, from the top down (R376). -/
def State.steps (s : State) : List Nat := if s.i20 then [2, 1, 0] else [3, 1, 0]

/-- The pairs (step, PARKED) in the order in which plan() tries them. -/
def State.candidates (s : State) (top : Nat) : List (Nat × Nat) :=
  (s.steps.filter (fun x => decide (x ≤ top))).flatMap (fun x => if x = top then [(x, 0), (x, 2), (x, 3)] else [(x, 3)])

/-- N of plan(): tiles that the demand needs. -/
def State.tilesNeeded (s : State) (parked : Nat) (tpp : List Nat) : Nat :=
  let ns := (running parked).foldl (fun x c => x + s.demand c * tpp.getD c 0) 0
  max (s.rfield .bwCtrl 6 7) ((ns * 5 + 3999999) / 4000000)

/-- The lowest-numbered tiles added until N are in the set. -/
def fillTiles (s : State) (n : Nat) (w : Word) : List Nat → Word
  | [] => w
  | k :: r =>
    if n ≤ countBits w then w
    else if w.getLsbD k ∨ s.force k = 2 then fillTiles s n w r
    else fillTiles s n (w ||| (1 : Word) <<< k) r

/-- PLAN_TILES of a plan (R380, R387, R394). -/
def State.planTiles (s : State) (n : Nat) : Word :=
  let must := (List.range 64).foldl (fun w k =>
    if (s.rget .planPin).getLsbD k || !s.tileEmpty k || decide (s.force k = 1) then w ||| (1 : Word) <<< k else w) (0 : Word)
  fillTiles s n must (List.range 64)

/-- plan() of R387. -/
def State.formPlan (s : State) (tpp : List Nat) : State :=
  if !s.bwOn then s
  else
    let avail := s.sustain * 1000 + s.bellows.bucket
    let top := min (s.rfield .bwCtrl 2 2) (if s.bellows.thermalCap then 0 else topStep s.i20)
    let (s, step, parked) := match (s.candidates top).find? (fun c => s.fits c.1 c.2 avail) with
      | some (x, p) => (s, x, p)
      | none =>
        let f := ratio (s.load 3 * (s.scale 0 : Nat)) ((s.scale s.stepNow : Nat) * microJoule)
        let s := (s.event 0x0201 8 0xFFF [(8, f.toNat), (8, (ratio avail microJoule).toNat)]).setBwStat 0
        (s, 0, 3)
    let tiles := s.planTiles (s.tilesNeeded parked tpp)
    { s with bellows := { s.bellows with planDue := some (step, parked, tiles), committed := [], msOther := 0 } }

/-! ### The PMBus correction (R383) -/

/-- A PMBus fault: event 0x0202. -/
def State.pmbusFault (s : State) (command : Nat) : State :=
  (s.event 0x0202 8 0xFFF [(1, command), (1, s.rfield .pmbCfg 8 7)]).setBwStat 2

/-- The correction from READ_PIN. A millisecond whose estimate is 0 gives no ratio: a free value. -/
def State.correct (s : State) (pin : BitVec 16) : State :=
  let y := (BitVec.ofNat 11 (pin.toNat % 2048)).toInt
  let n := ((BitVec.ofNat 5 (pin.toNat / 2048)).toInt + 16).toNat
  if y ≤ 0 then s.pmbusFault 0x97
  else
    let measured : Int := y * 1000 * microJoule * (2 ^ n : Nat)
    let sum := s.bellows.msEstimate
    let corr : Int := (s.rget .corr).toNat
    let (s, w) := s.freeWord
    let next := if sum ≤ 0 then (w.toNat : Int) else ratio (7 * corr * sum * 65536 + measured * 65536) (8 * sum * 65536)
    let r := if sum ≤ 0 then (w.toNat : Int) else ratio measured sum
    let clamped := max 0x8000 (min 0x20000 next)
    let s := { s with bellows := { s.bellows with corrNext := BitVec.ofInt 64 clamped } }
    if clamped = next then s else s.event 0x0205 8 0xFFF [(4, (r % 2 ^ 32).toNat)]

/-- PMBUS_CORRECTION, at the end of a millisecond: the readings, or the command that failed; without a monitor, nothing is read. -/
def State.pmbus (s : State) (r : PmbusReading) : State :=
  if !(s.rget .pmbCfg).getLsbD 15 then { s with bellows := { s.bellows with msEstimate := 0 } }
  else
    let s := match r with
      | .ok vin iout pin => (s.rset .pmbRead (BitVec.ofNat 64 (vin.toNat * 2 ^ 32 + iout.toNat * 2 ^ 16 + pin.toNat))).correct pin
      | .failed c => s.pmbusFault c.toNat
    { s with bellows := { s.bellows with msEstimate := 0 } }

/-! ### Expiries (R376, R379, R380) -/

/-- VR_SETTLE ends: the divider switches. -/
def State.settled (s : State) : State :=
  match s.bellows.settling with
  | some step => State.rsetField { s with bellows := { s.bellows with settling := none } } .plan 0 2 step
  | none => s

/-- A tile idle for 16 cycles gates its clock. -/
def State.gateClock (s : State) (n : Nat) : State :=
  if decide (s.power n = .active) && !s.tileBusy n && decide (s.force n ≠ 1) &&
      (List.range 8).all (fun k => (s.dueVectors (BitVec.ofNat 9 (8 * n + k))).isEmpty) then s.setPower n .gated else s

/-- OFF_AFTER in RETENTION: OFF, where the L1 caches hold nothing; the L2 follows when all four tiles of the cluster are OFF. -/
def State.tileOff (s : State) (n : Nat) : State :=
  if s.power n = .retention then
    let s := State.setPower (s.setTile n { s.tile n with l1i := [] }) n .off
    if (List.range 4).all (fun k => decide (s.power (n / 4 * 4 + k) = .off)) && decide (s.force (64 + n / 4) ≠ 1) then s.setPower (64 + n / 4) .off else s
  else s

/-- A crypto engine with no record for 1 ms. -/
def State.cryptoIdle (s : State) (k : Nat) : State :=
  if decide (s.power (97 + k) = .active) && decide (s.force (97 + k) ≠ 1) then s.setPower (97 + k) .retention else s

/-- A waking domain is ACTIVE. -/
def State.woken (s : State) (d : Nat) : State := if s.power d = .waking then s.setPower d .active else s

end Sys2Proof.Machine
end

