-- ==== Sys2Proof/Machine/Etcher.lean ====
section
/-! DEFINITION. The Etcher's work on the drive: Writes of the tail, proofs, FORMAT, OPEN and its replay, tail requests, line repair, the
mirror ring, and the power-fail drain (R219, R223, R226 to R232, R236 to R241, R345, R347, R372, R456). -/

namespace Sys2Proof.Machine

/-! ### The chain as the Etcher meets it (R343, R345) -/

/-- Every reachable unit but this one, in ascending address order. -/
def State.reachable (s : State) : List UnitAddr :=
  ((List.range 1024).map (BitVec.ofNat 10)).filter (fun u => s.reaches u && decide (u ≠ s.unitAddr))

/-- The candidates of R345 in order. -/
def State.mirrorCandidates (s : State) : List UnitAddr :=
  let w := s.rget .sdMirror
  (if w.getLsbD 42 then [BitVec.ofNat 10 (bitsOf w 32 10)] else []) ++ (s.neighbour 1).toList ++ (s.neighbour 0).toList

/-- The choice of R345: the first candidate that is reachable and accepts. -/
def State.choice (s : State) : Option UnitAddr :=
  s.mirrorCandidates.find? (fun u => s.reaches u && Config.acceptsMirror u s.fresh)

/-- Sets the mirror target in SD_MIRROR. -/
def State.setTarget (s : State) (u : Option UnitAddr) : State :=
  match u with
  | some a => s.rsetField .sdMirror 0 11 (a.toNat + 1024)
  | none => s.rsetField .sdMirror 0 11 0

/-- The unit chooses its mirror target again (R345). The loss of the target starts fallback, a choice ends it (R225). -/
def State.chooseMirror (s : State) : State :=
  let c := s.choice
  if c = s.mirrorTarget then (if c = none ∧ s.emode = 0 ∧ s.journalOpen then s.fallback else s.endFallback)
  else
    match c with
    | none => (if s.journalOpen then s.fallback else s).setTarget none
    | some u =>
      if s.emode = 0 ∧ s.mirrorTarget ≠ none ∧ s.journalOpen then (s.fallback.setTarget (some u)).endFallback
      else (s.setTarget (some u)).endFallback

/-! ### The drive -/

/-- Root port n's link is up (R434). -/
def State.driveUp (s : State) (n : Nat) : Bool := (s.rget (.rpStat n)).getLsbD 0 && (s.rget (.rpStat n)).getLsbD 10

/-! ### Gates over a range (R372) -/

/-- Addresses where a gate's decision can change inside [lo, hi): the range's start, region bounds, channel bounds. -/
def State.decisionPoints (s : State) (lo hi : Nat) : List Nat :=
  let inside (l : List Nat) (a : Nat) : List Nat := if lo ≤ a ∧ a < hi then insertNat a l else l
  let l := s.regs.foldl (fun l p => match regAt p.1 with
    | some (.gStart _ _) => inside l (16 * p.2.toNat)
    | some (.gEnd _ _) => inside l (16 * p.2.toNat)
    | _ => l) [lo]
  (s.channels.foldl (fun (x : List Nat × Nat) c =>
    if c.2.failed = none then (inside x.1 (x.2 + c.2.bytes), x.2 + c.2.bytes) else x) (l, 0)).1

/-- Whether the Etcher's write of a range meets a denial; the first one is recorded. -/
def firstDenied (s : State) : List Nat → State × Bool
  | [] => (s, false)
  | a :: r =>
    match s.gateAccess .etcher a false true none with
    | (s, .deny _ _ _) => (s, true)
    | (s, _) => firstDenied s r

/-- A gate allows an access to one granule and records nothing. -/
def State.passes (s : State) (m : Master) (a : Nat) (rd wr : Bool) : Bool :=
  match s.gateOf a with
  | some g => decide (gateScan (s.gateTableFor m g a) g a { id := masterCode m, rd := rd, wr := wr, colours := none } 32 0 = .allow)
  | none => true

/-- The gate decides n granules from granule g on one by one; answers the denied ones. -/
def gateRun (s : State) (m : Master) (rd wr : Bool) (g : Nat) : Nat → State × List Nat
  | 0 => (s, [])
  | n + 1 =>
    match s.gateAccess m (16 * g) rd wr none with
    | (s, .deny _ _ _) => let (s, l) := gateRun s m rd wr (g + 1) n; (s, g :: l)
    | (s, _) => gateRun s m rd wr (g + 1) n

/-- The denied granules of the range [lo, hi): between two decision points every granule meets the same decision. -/
def gatePoints (s : State) (m : Master) (rd wr : Bool) (hi : Nat) : List Nat → State × List Nat
  | [] => (s, [])
  | p :: r =>
    let q := r.headD hi
    let (s, l) := if s.passes m p rd wr then (s, []) else gateRun s m rd wr (p / 16) ((q - p) / 16)
    let (s, l') := gatePoints s m rd wr hi r
    (s, l ++ l')
def State.gateRange (s : State) (m : Master) (lo n : Nat) (rd wr : Bool) : State × List Nat := gatePoints s m rd wr (lo + n) (s.decisionPoints lo (lo + n))

/-! ### The image as the Etcher writes it (R229, R230) -/

/-- Where the unit's own image begins, as the registers say. -/
def State.ownImg (s : State) : Nat := (s.rget .imgLba).toNat
def State.ownSize (s : State) : Nat := (s.rget .durSize).toNat

/-- The lines of [lo, lo + n) in error, or with one failed device. -/
def linesIn {α : Type} (l : List (Nat × α)) (lo n : Nat) : List Nat := (l.filter (fun k => decide (lo ≤ 64 * k.1) && decide (64 * k.1 < lo + n))).map (·.1)

/-- The Etcher reads n bytes of DRAM from lo: denied granules and lines in error are found (R58, R366). -/
def State.etcherReads (s : State) (lo n : Nat) : State × List Nat × List Nat :=
  let (s, denied) := s.gateRange .etcher lo n true false
  let bad := linesIn s.ue lo n
  let s := bad.foldl (fun s l => s.foundError .etcher l) s
  ((linesIn s.weak lo n).foldl (fun s l => s.mediaRead l) s, denied, bad)

/-- Data block n goes to the data region (R230): a denied granule reads as zeros, a line in error leaves the image as it is. -/
def etchData (s : State) (n : Nat) : State :=
  let lo := (s.rget .durBase).toNat + 4096 * n
  let dst := lbaByte (s.ownImg + n)
  let (s, denied, bad) := s.etcherReads lo 4096
  let src := s.mem.filter (fun c => decide (lo ≤ c.1) && decide (c.1 < lo + 4096) && !denied.contains (c.1 / 16) && !bad.contains (c.1 / 64))
  let kept := s.drive0.cells.filter (fun c => decide (c.1 < dst) || decide (dst + 4096 ≤ c.1) || bad.contains ((c.1 - dst + lo) / 64) && !denied.contains ((c.1 - dst + lo) / 16))
  { s with drive0 := { s.drive0 with cells := src.foldl (fun m c => Map.put 0 m (c.1 - lo + dst) c.2) kept } }

/-- The 4 KiB tag-colour block that covers data block b: 4,096 granules (R229, R230). -/
def etchTags (s : State) (b : Nat) : State :=
  let k := b / 16 * 4096
  let g := (s.rget .durBase).toNat / 16 + k
  let dst := tagRegion s.ownImg s.ownSize + k
  let (s, denied, bad) := s.etcherReads (16 * g) 65536
  let fresh (c : Nat) : Bool := !bad.contains (lineOf c) || denied.contains c
  let src := s.gran.filter (fun c => decide (g ≤ c.1) && decide (c.1 < g + 4096) && fresh c.1 && !denied.contains c.1)
  let kept := s.drive0.tags.filter (fun c => decide (c.1 < dst) || decide (dst + 4096 ≤ c.1) || !fresh (c.1 - dst + g))
  let put (m : List Host.Cell) (c : Nat) (v : Byte) : List Host.Cell := Map.put 0x0F m (c - g + dst) v
  { s with drive0 := { s.drive0 with tags := denied.foldl (fun m c => put m c 0) (src.foldl (fun m c => put m c.1 (tagByte c.2)) kept) } }

/-- A port's receive cursor as last published (R299): an arrival plate that is not durable has replaced nothing yet. -/
def State.publishedRxcur (s : State) (n : Nat) : Quad :=
  match s.sudon.incoming.find? (fun i => i.arrived && !i.partition && decide (i.obj = n)) with
  | some i => i.oldCur
  | none => (s.port n).rxcur

/-- The cursor region (R229). -/
def etchCursors (s : State) : State :=
  { s with drive0 := s.drive0.putCursors (cursorRegion s.ownImg s.ownSize) (s.ports.map (fun p => (p.1, s.publishedRxcur p.1))) }

/-- The JPOS of the first record with a CSN above s (R230). -/
def State.firstAfter (s : State) (csn : Nat) : Nat :=
  match s.etch.recs.find? (fun r => r.journalled && decide (csn < r.csn)) with
  | some r => r.pos
  | none => s.jposition

/-- The snapshot that starts a proof, and its drive commands (R230). -/
def State.startProof (s : State) : State :=
  let csn := s.durable
  let p : Proof := { num := (s.rget .proofNum).toNat + 1, scsn := csn, jpos := s.firstAfter csn }
  { s with etch := { s.etch with
      proof := some p, boundaryWaits := false, dirty := [],
      nvme := s.etch.nvme ++ s.etch.dirty.map .block ++ [.cursors, .flush, .marker p.num p.scsn p.jpos] } }

/-- An epoch boundary (R230). The number recorded is that of the proof that waits. -/
def State.epochBoundary (s : State) : State :=
  if !s.journalOpen || s.pfail || s.halted || s.etch.drainStopped then s
  else
    match s.etch.proof with
    | some p => State.event { s with etch := { s.etch with boundaryWaits := true } } 0x0603 4 0 [(8, p.num + 1)]
    | none => s.startProof

/-- The marker of a proof (R231). -/
def State.markerFor (s : State) (p csn j : Nat) : Marker :=
  { proof := p, scsn := csn, jpos := j, fmtid := s.rget .fmtid, unit := s.unitAddr, durSize := (s.rget .durSize).toNat }

/-- A proof is complete (R230, R231). -/
def State.proofComplete (s : State) (p csn j : Nat) : State :=
  let s := { s with drive0 := s.drive0.putMarker (s.markerFor p csn j) }
  let s := (s.rset .proofNum (BitVec.ofNat 64 p)).rset .proofCsn (BitVec.ofNat 64 csn)
  let s := s.setEtchBit 1 true
  let s := { s with etch := { s.etch with proof := none, proofPos := j } }
  if s.etch.boundaryWaits then s.startProof else s

/-- The source reports its drained position (R347). -/
def State.report (s : State) : State :=
  match s.mirrorTarget with
  | some u => State.chainOut { s with etch := { s.etch with reported := s.etch.drained } } u (.drainedReport s.etch.drained)
  | none => s

/-- Where the own journal ring begins on the drive (R221, R228). -/
def State.ringBase (s : State) : Nat := lbaByte (s.rget .jringLba).toNat

/-- A Write of the tail up to a position completes (R224, R226). -/
def State.ringWritten (s : State) (upto : Nat) : State :=
  let n := upto - s.etch.drained
  let data := ringGet s.mem ownRing ringSize s.etch.drained n
  let s := { s with drive0 := { s.drive0 with cells := ringPut s.drive0.cells s.ringBase s.driveRing s.etch.drained data } }
  let recs := s.etch.recs.map (fun r => if r.pos + r.len ≤ upto then { r with media := true } else r)
  let s := State.setTail { s with etch := { s.etch with drained := max s.etch.drained upto, recs := recs,
                                                        undrained := s.etch.undrained.filter (fun r => decide (upto < r.2.1 + r.2.2)) } }
  let s := if s.mirrorTarget.isSome && decide (s.etch.reported + 65536 ≤ s.etch.drained) then s.report else s
  s.advance

/-- Segments of the mirror ring as the Etcher reads them: a denied granule reads as zeros (R366, R372). -/
def readSegs (s : State) : List (Nat × Nat) → State × List Byte
  | [] => (s, [])
  | (pos, n) :: r =>
    let (s, d) :=
      match s.gateAccess .etcher (mirrorRing + pos % ringSize) true false none with
      | (s, .deny _ _ _) => (s, List.replicate n (0 : Byte))
      | (s, _) => (s, ringGet s.mem mirrorRing ringSize pos n)
    let (s, d') := readSegs s r
    (s, d ++ d')

/-- n bytes of the mirror ring from a journal position. -/
def readMirror (s : State) (pos n : Nat) : State × List Byte := readSegs s (segments pos n)

/-- The spill of the mirror tail (R236, R456). -/
def State.writeSpill (s : State) : State :=
  let e := s.etch
  let n := e.mirrorTo - e.mirrorFrom
  let (s, data) := readMirror s e.mirrorFrom n
  let sp : Spill :=
    if n = 0 then { fmtid := s.rget .fmtid, unit := s.unitAddr, pfmt := 0, punit := 0xFFFF, sjpos := 0, data := [] }
    else { fmtid := s.rget .fmtid, unit := s.unitAddr, pfmt := BitVec.ofNat 32 e.mirrorFmt,
           punit := match e.mirrorSrc with
             | some u => u.setWidth 16
             | none => 0xFFFF,
           sjpos := e.mirrorFrom, data := data }
  { s with drive0 := s.drive0.putSpill (s.rget .spillLba).toNat sp }

/-- A drive command completes without error. The Write Zeroes of a takeover acts on root port 1 (R355). -/
def State.driveDone (s : State) : NvmeCmd → State
  | .ring upto => s.ringWritten upto
  | .block n => etchTags (etchData s n) n
  | .cursors => etchCursors s
  | .flush => s
  | .marker p csn j => s.proofComplete p csn j
  | .spill => s.writeSpill
  | .zeroHeader => { s with drive1 := { s.drive1 with cells := zeroBytes s.drive1.cells 0 8192 } }
  | .repairRead _ => s

/-- The NVMe opcode and LBA of a command (R235). -/
def State.commandAt (s : State) : NvmeCmd → Nat × Nat
  | .ring _ => (1, (s.rget .jringLba).toNat + s.etch.drained % s.driveRing / 4096)
  | .block n => (1, (s.rget .imgLba).toNat + n)
  | .cursors => (1, (s.rget .imgLba).toNat + (s.rget .durSize).toNat * 17 / 16 / 4096)
  | .flush => (0, 0)
  | .marker p _ _ => (1, 16 + p % 16)
  | .spill => (1, (s.rget .spillLba).toNat)
  | .zeroHeader => (8, 0)
  | .repairRead line => (2, s.ownImg + (64 * line - (s.rget .durBase).toNat) / 4096)

/-- Commands that a failed Write of the own drive leaves: the fence on the other drive, and reads of a repair. -/
def NvmeCmd.survives : NvmeCmd → Bool
  | .zeroHeader | .repairRead _ => true
  | _ => false

/-- A failed command of the unit's own drive (R226, R235): FORMAT and OPEN end, the drain and proofs stop. -/
def State.driveError (s : State) (op lba status : Nat) : State :=
  let s := (s.setEtchBit 4 true).event 0x0604 4 0 [(1, op), (8, lba), (2, status), (1, 0)]
  let e := s.etch
  let s := { s with etch := { e with drainStopped := true, proof := none, boundaryWaits := false, formatting := false,
                                     nvme := e.nvme.filter (fun c => c.survives || (e.draining && decide (c = NvmeCmd.spill))) } }
  if e.formatting then s.setEtchBit 7 false
  else if s.etchBit 7 then { s with etch := { s.etch with openFail := some 0, replay := none } } else s

/-! ### FORMAT (R232) -/

/-- FORMAT or OPEN meets a drive command that fails: which of the commands it issues, and at which LBA, no rule tells: free values (log entry 45).
`ops` are their two opcodes. -/
def State.longFails (s : State) (ops : Nat × Nat) (status : Nat) : State :=
  let (s, w) := s.freeWord
  let (s, lba) := s.freeWord
  s.driveError (if w.getLsbD 0 then ops.1 else ops.2) lba.toNat status
/-- FORMAT issues Writes and Write Zeroes, OPEN Reads and Writes (R232, R240, R241). -/
def formatOps : Nat × Nat := (1, 8)
def openOps : Nat × Nat := (2, 1)

/-- FORMAT or OPEN with no drive counts as a failed drive command (R434), its status a free value too: DESIGN CHOICE (log entry 45). -/
def State.noDrive (s : State) (ops : Nat × Nat) : State :=
  let (s, w) := s.freeWord
  s.longFails ops (w.toNat % 65536)

/-- The area header that FORMAT writes (R228). -/
def State.areaHeader (s : State) : AreaHeader :=
  { fmtid := s.rget .fmtid, unit := s.unitAddr, durBase := (s.rget .durBase).toNat, durSize := (s.rget .durSize).toNat,
    spillLba := (s.rget .spillLba).toNat, jringLba := (s.rget .jringLba).toNat, jringBlocks := (s.rget .jringBlocks).toNat,
    imgLba := (s.rget .imgLba).toNat }

/-- FORMAT starts. -/
def State.startFormat (s : State) : State :=
  if s.driveUp 0 then { (s.setEtchBit 7 true) with etch := { s.etch with formatting := true } } else s.noDrive formatOps

/-- Write Zeroes over the data and cursor regions, 0x0F over the tag-colour region (R232). -/
def Drive.blankImage (d : Drive) (img size : Nat) : Drive :=
  { cells := zeroBytes (zeroBytes d.cells (lbaByte img) size) (cursorRegion img size) 65536, tags := zeroBytes d.tags (tagRegion img size) (size / 16) }

/-- The area header twice, the ground proof's marker, and every other marker slot cleared (R232). -/
def Drive.ground (d : Drive) (h : AreaHeader) (k : Marker) : Drive :=
  let d := (d.putHeader 0 h).putHeader 1 h
  Drive.putMarker { d with cells := zeroBytes d.cells (lbaByte 16) (16 * 4096) } k

/-- FORMAT's Writes are done (R232). -/
def State.formatted (s : State) : State :=
  if !s.etch.formatting then s
  else
    let s := { s with drive0 := (s.drive0.blankImage s.ownImg s.ownSize).ground s.areaHeader (s.markerFor 0 0 0) }
    State.setEtchBit { s with etch := { s.etch with formatting := false } } 7 false

/-! ### Records read back (R216 to R219, R240) -/

/-- A record as replay reads it. -/
structure RecIn where
  csn : Nat
  unit : Nat
  fmt : Nat
  len : Nat
  body : List Byte
  deriving DecidableEq, Repr

/-- The record at a position of a ring, when its CRC holds; COUNT never exceeds 256. -/
def recordAt (m : List Host.Cell) (base size pos : Nat) : Option RecIn :=
  let h := ringGet m base size pos 32
  let n := leValue (sliceBytes h 12 2)
  if n > 256 then none
  else
    let body := ringGet m base size (pos + 32) (24 * n)
    if (crc32c (h.take 28 ++ body)).toNat = leValue (h.drop 28) then
      some { csn := leValue (h.take 8), unit := leValue (sliceBytes h 8 2), fmt := leValue (sliceBytes h 16 4), len := 32 + 24 * n, body := body }
    else none

/-- An entry of a record. -/
structure EntryIn where
  kind : Nat
  gaddr : Nat
  value : Granule
  deriving DecidableEq, Repr

/-- The entries of a record's body. -/
def entriesIn : Nat → List Byte → List EntryIn
  | 0, _ => []
  | k + 1, d =>
    if d.isEmpty then []
    else
      let w : Word := BitVec.ofNat 64 (leValue (d.take 8))
      { kind := bitsOf w 47 2, gaddr := bitsOf w 0 42,
        value := { data := BitVec.ofNat 128 (leValue (sliceBytes d 8 16)), tag := w.getLsbD 42, colour := BitVec.ofNat 4 (bitsOf w 43 4) } }
        :: entriesIn k (d.drop 24)

/-- Where replay puts what a record holds: the area [lo, lo + size), where it goes, and, for a takeover, where the cursor copy stands. -/
structure Into where
  lo : Nat
  size : Nat
  at_ : Nat
  cursorCopy : Option Nat
  deriving DecidableEq, Repr

/-- The port of a receive-cursor granule (R219). -/
def cursorPort (gaddr : Nat) : Option Nat :=
  let a := 16 * gaddr
  if portEntry 0 ≤ a ∧ a < portEntry 4096 ∧ (a - portEntry 0) % 512 = 0 then some ((a - portEntry 0) / 512) else none

/-- The entry obeys R219; KIND 3 is reserved and breaks it. -/
def EntryIn.ok (x : EntryIn) (i : Into) : Bool :=
  match x.kind with
  | 0 => decide (i.lo ≤ 16 * x.gaddr) && decide (16 * x.gaddr < i.lo + i.size)
  | 1 => true
  | 2 => (cursorPort x.gaddr).isSome
  | _ => false

/-- A dirty mark for a granule inside this unit's Durable area. -/
def State.markGranule (s : State) (g : Nat) : State := if s.durableGranule g then s.markDirty (16 * g) else s

/-- Replays an entry (R219, R355). -/
def State.applyEntry (s : State) (i : Into) (x : EntryIn) : State :=
  match x.kind with
  | 0 =>
    let g := (16 * x.gaddr - i.lo + i.at_) / 16
    (s.setGranule g x.value).markGranule g
  | 2 =>
    match cursorPort x.gaddr, i.cursorCopy with
    | some n, none => s.modPort n (fun p => p.withRxcur x.value.data)
    | some n, some a =>
      let g := a / 16 + n
      (s.setGranule g { (s.granuleAt g) with data := x.value.data, tag := false }).markGranule g
    | none, _ => s
  | _ => s

/-- Replays the records of one ring from a position on (R240), for `fuel` records at most. A record that came from a partner is also written
to the unit's own journal ring where `keep` says so. -/
def replayRun (m : List Host.Cell) (base size : Nat) (i : Into) (keep : Bool) : Nat → State → Replay → State × Replay
  | 0, s, r => (s, r)
  | fuel + 1, s, r =>
    match recordAt m base size r.pos with
    | none => (s, r)
    | some x =>
      let es := entriesIn 256 x.body
      if x.csn ≠ r.expect ∨ x.fmt ≠ r.header.fmtid.toNat % 2 ^ 32 ∨ x.unit ≠ r.header.unit.toNat ∨ !(es.all (fun e => e.ok i)) then (s, r)
      else
        let s := es.foldl (fun s e => s.applyEntry i e) s
        let s := if keep then
            { s with drive0 := { s.drive0 with cells := ringPut s.drive0.cells s.ringBase s.driveRing r.pos (ringGet m base size r.pos x.len) } }
          else s
        replayRun m base size i keep fuel s { r with pos := r.pos + x.len, expect := r.expect + 1, applied := true }

/-! ### OPEN (R240, R241) -/

/-- Loads the image of a drive at block `img` into memory at `at_`: data, then tags and colours; lines of the range leave error. -/
def loadImage (s : State) (d : Drive) (img at_ size : Nat) : State :=
  let lo := tagRegion img size
  let gran := d.tags.filter (fun c => decide (lo ≤ c.1) && decide (c.1 < lo + size / 16))
  { s with
    mem := moveCells d.cells s.mem (lbaByte img) size at_,
    gran := gran.foldl (fun m c => Map.put granDefault m (at_ / 16 + (c.1 - lo)) (byteTag c.2))
      (s.gran.filter (fun c => decide (c.1 < at_ / 16) || decide ((at_ + size) / 16 ≤ c.1))),
    ue := s.ue.filter (fun c => decide (64 * c.1 < at_) || decide (at_ + size ≤ 64 * c.1)),
    etch := { s.etch with repair := s.etch.repair.filter (fun l => decide (64 * l < at_) || decide (at_ + size ≤ 64 * l)) } }

/-- Loads the cursor region into the receive-cursor granules. -/
def loadCursors (s : State) (d : Drive) (lo : Nat) : State :=
  let s := { s with ports := s.ports.map (fun p => (p.1, p.2.withRxcur 0)) }
  (d.cursors lo).foldl (fun s c => s.modPort c.1 (fun p => p.withRxcur c.2)) s

/-- Where this unit's own replay puts things. -/
def State.ownInto (s : State) : Into :=
  { lo := (s.rget .durBase).toNat, size := (s.rget .durSize).toNat, at_ := (s.rget .durBase).toNat, cursorCopy := none }

/-- The units that OPEN asks for its tail, in order (R241). -/
def State.tailHolders (s : State) : List UnitAddr :=
  let first := (s.choice).toList
  first ++ s.reachable.filter (fun u => !first.contains u)

/-- OPEN could not go on: why (R235). -/
def State.openFails (s : State) (reason : Nat) : State := { s with etch := { s.etch with openFail := some reason, replay := none } }

/-- OPEN: header, marker, image, its own journal ring, then the tail requests (R240, R241). A gate's denial fails it (R372). -/
def State.startOpen (s : State) : State :=
  let s := State.setEtchBit { s with etch := { s.etch with openFail := none, replay := none } } 7 true
  if !s.driveUp 0 then s.noDrive openOps
  else
    match s.drive0.header with
    | none => s.openFails 1
    | some h =>
      if h.fmtid ≠ s.rget .fmtid ∨ h.durSize ≠ (s.rget .durSize).toNat then s.openFails 2
      else
        match s.drive0.bestMarker h with
        | none => s.openFails 3
        | some m =>
          let i := s.ownInto
          match firstDenied s (s.decisionPoints i.lo (i.lo + i.size)) with
          | (s, true) => s.openFails 4
          | (s, false) =>
            let s := loadCursors (loadImage s s.drive0 s.ownImg i.lo i.size) s.drive0 (cursorRegion s.ownImg i.size)
            let ask := if s.etchMode = 1 then [] else s.tailHolders
            let r : Replay := { header := h, proof := m.proof, scsn := m.scsn, markerPos := m.jpos, pos := m.jpos, expect := m.scsn + 1,
                                applied := false, asking := ask, firstAsked := ask.head? }
            let (s, r) := replayRun s.drive0.cells s.ringBase s.driveRing i false (s.drive0.cells.length + 1) s r
            let s := { s with etch := { s.etch with replay := some r } }
            match ask with
            | u :: _ => s.chainOut u (.tailRequest u s.unitAddr (s.rget .fmtid) r.pos)
            | [] => s

/-- A tail answer (R241): its records are applied and written to the own journal ring, or the next unit is asked. A gate's
denial fails OPEN (R372). -/
def State.tailAnswered (s : State) (u : UnitAddr) (tail : Option (List Byte)) : State :=
  match s.etch.replay with
  | none => s
  | some r =>
    match r.asking with
    | [] => s
    | v :: rest =>
      if u ≠ v then s
      else
        match tail with
        | some d =>
          let i := s.ownInto
          match firstDenied s (s.decisionPoints i.lo (i.lo + i.size)) with
          | (s, true) => s.openFails 4
          | (s, false) =>
          let m := ringPut [] 0 (2 ^ 64) r.pos d
          let (s, r) := replayRun m 0 (2 ^ 64) s.ownInto true (d.length + 1) s r
          { s with etch := { s.etch with replay := some { r with asking := [] } } }
        | none =>
          let s := { s with etch := { s.etch with replay := some { r with asking := rest } } }
          match rest with
          | w :: _ => s.chainOut w (.tailRequest w s.unitAddr (s.rget .fmtid) r.pos)
          | [] => s

/-- No tail within 10 s (R241). -/
def State.tailTimeout (s : State) : State :=
  match s.etch.replay with
  | some r =>
    if r.asking = [] then s
    else State.event { s with etch := { s.etch with replay := some { r with asking := [] } } } 0x060B 4 0
      [(8, r.pos), (2, match r.firstAsked with
        | some u => u.toNat
        | none => 0xFFFF)]
  | none => s

/-- Journal SRAM is cleared; port-state SRAM is reset but for the receive cursors (R240). -/
def clearSrams (s : State) : State :=
  { s with mem := s.mem.filter (fun c => decide (c.1 < ownRing) || decide (ownRing + 2 * ringSize ≤ c.1)),
           ue := s.ue.filter (fun c => decide (64 * c.1 < ownRing) || decide (ownRing + 2 * ringSize ≤ 64 * c.1)),
           ports := s.ports.map (fun p => (p.1, Port.reset.withRxcur p.2.rxcur)) }

/-- OPEN completes (R240): the CSN registers, the journal running, its registers locked, event 0x0606. -/
def State.journalRuns (s : State) (r : Replay) : State :=
  let s := clearSrams s
  let s := (s.rset .durableCsn (BitVec.ofNat 64 (r.expect - 1))).rset .nextCsn (BitVec.ofNat 64 r.expect)
  let s := (s.rset .jpos (BitVec.ofNat 64 r.pos)).rset .proofNum (BitVec.ofNat 64 r.proof)
  let s := (s.rset .proofCsn (BitVec.ofNat 64 r.scsn)).rset .mirrorTailBytes 0
  let s := { s with etch := { s.etch with
      replay := none, recs := [], drained := r.pos, writeIssued := r.pos, reported := r.pos, dispatched := r.pos, proofPos := r.markerPos,
      locked := true, mirrorSrc := none, mirrorFrom := 0, mirrorTo := 0, mirrorEnds := [], mirrorFmt := 0, undrained := [], fenced := false } }
  let s := ((s.setTail.setEtchBit 8 true).setEtchBit 7 false).setEtchBit 0 r.applied
  let s := (s.rsetField .sdMirror 26 1 0).event 0x0606 4 0 [(8, r.proof), (8, r.expect - 1)]
  s.chooseMirror

/-- OPEN fails (R240): event 0x0604 but for a drive command that failed, whose own event stands. The reason of a denial is not given: free. -/
def State.openFailed (s : State) (reason : Nat) : State :=
  let s := State.setEtchBit { s with etch := { s.etch with openFail := none, replay := none } } 7 false
  if reason = 0 then s
  else
    let (s, w) := s.freeWord
    let why := if reason = 4 then w.toNat % 256 else reason
    (s.setEtchBit 4 true).event 0x0604 4 0 [(1, 2), (8, if reason = 3 then 16 else 0), (2, 0), (1, why)]

/-- Replay has ended, or OPEN cannot go on: MSI-X vector 4 either way (R240, R433). -/
def State.recoveryEnds (s : State) : Option State :=
  if !s.etchBit 7 || s.etch.formatting then none
  else
    match s.etch.openFail, s.etch.replay with
    | some reason, _ => some ((s.openFailed reason).raiseMsix 4)
    | none, some r => if r.asking = [] then some ((s.journalRuns r).raiseMsix 4) else none
    | none, none => none

/-- ETCH_CMD (R233): ignored while BUSY is 1 and after OPEN. -/
def State.etchCommand (s : State) (v : Word) : State :=
  if s.etchBit 7 || s.etch.locked then s
  else if bitsOf v 0 4 = 1 then s.startFormat
  else if bitsOf v 0 4 = 2 then s.startOpen
  else s

/-- A write of ETCH_CTRL (R234). -/
def State.writeEtchCtrl (s : State) (v : Word) : State :=
  let old := s.etchMode
  let s := s.rset .etchCtrl (fieldWrite (s.rget .etchCtrl) v (RName.etchCtrl.fields s.i20))
  let new := s.etchMode
  if old = 1 ∧ new = 0 then
    (if s.mirrorTarget.isSome then s.setEmode 0 else (s.setEmode 0).fallback)
  else if old = 0 ∧ new = 1 then
    (if s.emode = 0 then (s.setEmode 1).nvmeSafe else s.setEmode 1)
  else s

/-! ### Tail requests from other units (R241, R456) -/

/-- The tail that this unit holds for a requester. -/
def State.heldTail (s : State) (u : UnitAddr) (fmtid : Word) (pos : Nat) : State × Option (List Byte) :=
  let e := s.etch
  if e.mirrorSrc = some u ∧ e.mirrorFrom < e.mirrorTo ∧ e.mirrorFrom ≤ pos ∧ pos ≤ e.mirrorTo then
    let (s, d) := readMirror s pos (e.mirrorTo - pos)
    (s, some d)
  else
    match s.drive0.spillAt (s.rget .spillLba).toNat with
    | some p =>
      if p.punit = u.setWidth 16 ∧ p.pfmt = fmtid.setWidth 32 ∧ p.data ≠ [] ∧ p.sjpos ≤ pos ∧ pos ≤ p.sjpos + p.data.length then
        (s, some (p.data.drop (pos - p.sjpos)))
      else (s, none)
    | none => (s, none)

/-- Requests are answered once the unit has an address and its root port 0 has trained (R241). -/
def answerTails (s : State) : List (UnitAddr × Word × Nat) → State
  | [] => s
  | (u, f, pos) :: r =>
    let (s, d) := s.heldTail u f pos
    answerTails (s.chainOut u (.tailAnswer u d)) r

def State.answerTailRequests (s : State) : State :=
  if (s.rget .sdAddr).getLsbD 15 && (s.rget (.rpStat 0)).getLsbD 0 then
    answerTails { s with etch := { s.etch with tailAsked := [] } } s.etch.tailAsked
  else s

/-! ### The mirror ring (R223, R345, R347) -/

/-- MIRROR_TAIL_BYTES follows the bytes held. -/
def State.setMirrorTail (s : State) : State := s.rset .mirrorTailBytes (BitVec.ofNat 64 (s.etch.mirrorTo - s.etch.mirrorFrom))

/-- The mirror path writes the granules of a record that GATE_8 allows (R366, R372); answers whether it denied one. -/
def mirrorWrite (s : State) : List (Nat × List Byte) → State × Bool
  | [] => (s, false)
  | (a, d) :: r =>
    match s.gateAccess .sudon (mirrorRing + a % ringSize) false true none with
    | (s, .deny _ _ _) => let (s, _) := mirrorWrite s r; (s, true)
    | (s, _) => mirrorWrite { s with mem := ringPut s.mem mirrorRing ringSize a d } r

/-- The unit accepts a source (R340, R345). -/
def State.accepts (s : State) (u : UnitAddr) : Bool :=
  (s.rget .sdCtrl).getLsbD 1 && s.hasAddr && s.journalOpen && (decide (s.etch.mirrorSrc = some u) || decide (s.etch.mirrorTo ≤ s.etch.mirrorFrom))

/-- A record of a source arrives (R347): into the ring and acknowledged, unless a gate denies it. Under PFAIL it is dropped: DESIGN CHOICE (log
entry 41). -/
def State.mirrorArrives (s : State) (u : UnitAddr) (jpos : Nat) (d : List Byte) : State :=
  if !s.accepts u || s.pfail then s
  else
    match mirrorWrite s (chunk (segments (jpos % ringSize) d.length) d) with
    | (s, true) => s
    | (s, false) =>
      let e := s.etch
      let follows := decide (e.mirrorSrc = some u) && decide (e.mirrorTo = jpos)
      let s := { s with etch := { e with mirrorSrc := some u, mirrorFrom := if follows then e.mirrorFrom else jpos,
                                         mirrorEnds := (if follows then e.mirrorEnds else []) ++ [jpos + d.length],
                                         mirrorTo := jpos + d.length, mirrorFmt := leValue (sliceBytes d 16 4) } }
      let s := ((s.setMirrorTail).rsetField .sdMirror 16 11 (u.toNat + 1024)).active 99 0 (blocks64 d.length)
      s.chainOut u (.ack u (jpos + d.length))

/-- A source's drained position frees the records that end before it (R223). -/
def State.drainedArrives (s : State) (u : UnitAddr) (jpos : Nat) : State :=
  if s.etch.mirrorSrc = some u then
    let e := s.etch
    let lo := (e.mirrorEnds.filter (fun k => decide (k ≤ jpos))).foldl max e.mirrorFrom
    State.setMirrorTail { s with etch := { e with mirrorFrom := lo, mirrorEnds := e.mirrorEnds.filter (fun k => decide (jpos < k)) } }
  else s

/-- An acknowledgement of the target (R224, R347); it is discarded for a record that no longer needs it (R225). -/
def State.ackArrives (s : State) (u : UnitAddr) (jpos : Nat) : State :=
  if s.mirrorTarget = some u then
    State.advance { s with etch := { s.etch with
      recs := s.etch.recs.map (fun r => if r.mirrored && decide (r.pos + r.len ≤ jpos) then { r with acked := true } else r) } }
  else s

/-! ### Line repair (R238) -/

/-- The bytes of the journal as drive and own ring hold them together: what is drained stands on the drive. -/
def State.journalCells (s : State) : List Host.Cell :=
  let lo := s.etch.proofPos
  let a := ringPut [] 0 (2 ^ 64) lo (ringGet s.drive0.cells s.ringBase s.driveRing lo (s.etch.drained - lo))
  ringPut a 0 (2 ^ 64) (max lo s.etch.drained) (ringGet s.mem ownRing ringSize (max lo s.etch.drained) (s.jposition - max lo s.etch.drained))

/-- KIND 0 entries for the granules of a line, in CSN order, up to the durable CSN; none when a needed record fails its CRC. -/
def repairEntries (m : List Host.Cell) (line durable stop : Nat) : Nat → Nat → Option (List EntryIn)
  | 0, _ => some []
  | fuel + 1, pos =>
    if stop ≤ pos then some []
    else
      match recordAt m 0 (2 ^ 64) pos with
      | none => none
      | some x =>
        if durable < x.csn then some []
        else
          match repairEntries m line durable stop fuel (pos + x.len) with
          | none => none
          | some l => some ((entriesIn 256 x.body).filter (fun e => decide (e.kind = 0) && decide (lineOf e.gaddr = line)) ++ l)

/-- The end of the records that repair needs: the end of the durable ones. -/
def State.durableEnd (s : State) : Nat :=
  match s.etch.recs.find? (·.journalled) with
  | some r => r.pos
  | none => s.jposition

/-- The gate's answer to the Etcher's write of the granules of a line. -/
def repairDenied (s : State) (g : Nat) : Nat → State × Bool
  | 0 => (s, false)
  | n + 1 =>
    match s.gateAccess .etcher (16 * g) false true none with
    | (s, .deny _ _ _) => (s, true)
    | (s, _) => repairDenied s (g + 1) n

/-- A failed repair (R238): the line stays in error. -/
def State.repairFails (s : State) (line reason : Nat) : State := s.event 0x0608 4 0 [(8, 64 * line), (1, reason)]

/-- The Read of the image block of a line fails: reason 1. -/
def State.repairReadFails (s : State) (line : Nat) : State :=
  if s.etch.repair.contains line then
    State.repairFails { s with etch := { s.etch with repair := s.etch.repair.filter (fun l => decide (l ≠ line)) } } line 1
  else s

/-- Repair of a line (R238). -/
def State.repairLine (s : State) (line : Nat) : State :=
  if !s.etch.repair.contains line then s
  else
    let s := { s with etch := { s.etch with repair := s.etch.repair.filter (fun l => decide (l ≠ line)),
                                             nvme := s.etch.nvme.filter (fun c => decide (c ≠ .repairRead line)) } }
    if !s.driveUp 0 then s.repairFails line 1
    else
      let lo := max s.etch.proofPos s.etch.drained
      match tailDenied s (segments (lo % ringSize) (s.jposition - lo)) with
      | (s, true) => s.repairFails line 3
      | (s, false) =>
      match repairEntries s.journalCells line s.durable s.durableEnd (s.jposition - s.etch.proofPos + 1) s.etch.proofPos with
      | none => s.repairFails line 2
      | some es =>
        match repairDenied s (4 * line) 4 with
        | (s, true) => s.repairFails line 3
        | (s, false) =>
          let k := 64 * line - (s.rget .durBase).toNat
          let s := { s with mem := moveCells s.drive0.cells s.mem (lbaByte s.ownImg + k) 64 (64 * line), ue := Map.erase s.ue line }
          let s := (List.range 4).foldl (fun s n =>
            { s with gran := Map.put granDefault s.gran (4 * line + n) (byteTag (Map.get 0x0F s.drive0.tags (tagRegion s.ownImg s.ownSize + k / 16 + n))) }) s
          let s := es.foldl (fun s e => s.setGranule e.gaddr e.value) s
          (s.markDirty (64 * line)).event 0x0607 4 0 [(8, 64 * line)]

/-! ### Power failure (R236) -/

/-- The drain starts: no further CSN, no proof; the tail, then the spill. -/
def State.startDrain (s : State) : State :=
  if !s.etch.pfailFilter then s
  else
    let s := State.setEtchBit { s with etch := { s.etch with pfailFilter := false } } 9 true
    let s := mendRing s s.mendable
    let (s, denied) := tailDenied s (segments (s.etch.drained % ringSize) (s.jposition - s.etch.drained))
    let e := s.etch
    let tail : List NvmeCmd := if !e.drainStopped && !denied && decide (e.drained < s.jposition) then [.ring s.jposition] else []
    { s with etch := { e with proof := none, boundaryWaits := false, draining := true, writeIssued := s.jposition,
                              nvme := tail ++ [.spill] ++ e.nvme.filter NvmeCmd.survives } }

/-- The Writes left of the drain. -/
def drainRest (s : State) : List NvmeCmd → State
  | [] => s
  | c :: r => drainRest (s.driveDone c) r

/-- The drain completes: PFAIL_DONE and event 0x0605. -/
def State.drainDone (s : State) : State :=
  if !s.etch.draining then s
  else
    let l := s.etch.nvme.filter (fun c => !c.survives)
    let s := drainRest { s with etch := { s.etch with nvme := s.etch.nvme.filter NvmeCmd.survives } } l
    let s := State.setEtchBit { s with etch := { s.etch with draining := false } } 10 true
    let spilled := blockField s.drive0.cells (s.rget .spillLba).toNat 48 8
    s.event 0x0605 4 0 [(8, s.jposition), (8, spilled)]

end Sys2Proof.Machine
end

