-- ==== Sys2Proof/Machine/Sudon.lean ====
section
/-! DEFINITION. The Sudon chain: flits, links, probes and lost units, enumeration and joining, takeover, and handover
(R334, R335, R339 to R342, R345, R348 to R352, R355). -/

namespace Sys2Proof.Machine

/-! ### Takeover (R354, R355) -/

def State.takeBase (s : State) : Nat := (s.rget .takeBase).toNat
def State.takeBytes (s : State) : Nat := (s.rget .takeSize).toNat * 2 ^ 24

/-- TAKE_STAT. -/
def State.setTakeStat (s : State) (st reason : Nat) : State :=
  s.rset .takeStat (BitVec.ofNat 64 (st + reason % 256 * 4 + s.sudon.takeUnit.toNat * 65536))

/-- A takeover fails: event 0x0806. -/
def State.takeFails (s : State) (reason : Nat) : State :=
  let u := s.sudon.takeUnit
  let s := { s with sudon := { s.sudon with take := .idle, takeReplay := none } }
  (s.setTakeStat 3 reason).event 0x0806 7 0 [(2, u.toNat), (1, reason % 256)]

/-- A takeover of unit u starts: the header on root port 1, then the fence. -/
def State.startTake (s : State) (u : UnitAddr) : State :=
  if s.sudon.take ≠ .idle then s
  else
    let s := { s with sudon := { s.sudon with takeUnit := u } }
    let h := if s.driveUp 1 then s.drive1.header else none
    match h with
    | none => s.takeFails 1
    | some h =>
      if h.unit ≠ u then s.takeFails 1
      else if h.durSize + 2 ^ 24 > s.takeBytes then s.takeFails 2
      else
        let r : Replay := { header := h, proof := 0, scsn := 0, markerPos := 0, pos := 0, expect := 0, applied := false, asking := [], firstAsked := none }
        let s := { s with sudon := { s.sudon with take := .fencing, takeReplay := some r },
                          etch := { s.etch with nvme := s.etch.nvme ++ [NvmeCmd.zeroHeader] } }
        s.setTakeStat 1 0

/-- A reason that the spec does not number (R355): a free value. -/
def State.takeFailsFree (s : State) : State :=
  let (s, w) := s.freeWord
  s.takeFails (w.toNat % 256)

/-- The fence's Write Zeroes completes; TAKE_WAIT follows. -/
def State.fenceDone (s : State) (ok : Bool) : State :=
  if s.sudon.take ≠ .fencing then s
  else if ok then { s with sudon := { s.sudon with take := .waiting } } else s.takeFailsFree

/-- Where a takeover puts what it replays. -/
def State.takeInto (s : State) (h : AreaHeader) : Into :=
  { lo := h.durBase, size := h.durSize, at_ := s.takeBase, cursorCopy := some (s.takeBase + h.durSize) }

/-- The cursor region loads to the end of the copy, as data: its granules lose their tags. -/
def loadCursorCopy (s : State) (l : List (Nat × Quad)) (at_ : Nat) : State :=
  let kept := s.mem.filter (fun c => decide (c.1 < at_) || decide (at_ + 65536 ≤ c.1))
  let inside := s.gran.filter (fun c => decide (at_ / 16 ≤ c.1) && decide (c.1 < at_ / 16 + 4096))
  { s with
    mem := l.foldl (fun m c => putBytes m (at_ + 16 * c.1) (leBytes 16 c.2.toNat)) kept,
    gran := inside.foldl (fun m c => Map.put granDefault m c.1 (false, c.2.2)) s.gran,
    ue := s.ue.filter (fun c => decide (64 * c.1 < at_) || decide (at_ + 65536 ≤ 64 * c.1)) }

/-- TAKE_WAIT ends: image, journal, then the own mirror ring (R355). -/
def State.takeLoads (s : State) : State :=
  match s.sudon.take, s.sudon.takeReplay with
  | .waiting, some r =>
    let h := r.header
    match s.drive1.bestMarker h with
    | none => s.takeFailsFree
    | some m =>
      match firstDenied s (s.decisionPoints s.takeBase (s.takeBase + h.durSize + 65536)) with
      | (s, true) => s.takeFailsFree
      | (s, false) =>
        let i := s.takeInto h
        let s := loadCursorCopy (loadImage s s.drive1 h.imgLba i.at_ i.size) (s.drive1.cursors (cursorRegion h.imgLba i.size)) (i.at_ + i.size)
        let r := { r with proof := m.proof, scsn := m.scsn, markerPos := m.jpos, pos := m.jpos, expect := m.scsn + 1 }
        let (s, r) := replayRun s.drive1.cells (lbaByte h.jringLba) (h.jringBlocks * 4096) i false (s.drive1.cells.length + 1) s r
        let (s, r) :=
          if s.etch.mirrorSrc = some s.sudon.takeUnit ∧ s.etch.mirrorFrom ≤ r.pos ∧ r.pos < s.etch.mirrorTo then
            let (s, d) := readMirror s r.pos (s.etch.mirrorTo - r.pos)
            replayRun (ringPut [] 0 (2 ^ 64) r.pos d) 0 (2 ^ 64) i false (d.length + 1) s r
          else (s, r)
        { s with sudon := { s.sudon with take := .loading, takeReplay := some r } }
  | _, _ => s

/-- The takeover area is whole: dirty, the mirror ring freed, event 0x0805, SD_VEC_1 (R355). -/
def State.takeDone (s : State) : State :=
  match s.sudon.take, s.sudon.takeReplay with
  | .loading, some r =>
    let s := (List.range (s.takeBytes / 4096)).foldl (fun s k => s.markGranule (s.takeBase / 16 + 256 * k)) s
    let s := State.setMirrorTail { s with etch := { s.etch with mirrorSrc := none, mirrorFrom := 0, mirrorTo := 0, mirrorEnds := [], mirrorFmt := 0 } }
    let s := { s with sudon := { s.sudon with take := .idle, takeReplay := none } }
    let s := (s.rsetField .sdMirror 16 11 0).setTakeStat 2 0
    (s.event 0x0805 7 0 [(2, s.sudon.takeUnit.toNat), (8, r.expect - 1)]).raiseVecReg (.sdVec 1)
  | _, _ => s

/-- SD_CMD TAKE: the lost source is taken over (R343, R355). -/
def State.takeCommand (s : State) : State :=
  match s.etch.mirrorSrc with
  | some u => if s.sudon.lost.contains u then s.startTake u else s
  | none => s

/-! ### Handover (R348 to R351) -/

/-- A partition slot's registers. -/
def State.partBase (s : State) (k : Nat) : Nat := (s.rget (.partBase k)).toNat
def State.partBytes (s : State) (k : Nat) : Nat := s.rfield (.partCtl k) 0 16 * 2 ^ 24
def State.partState (s : State) (k : Nat) : Nat := s.rfield (.partCtl k) 62 2
def State.setPartState (s : State) (k st : Nat) : State := s.rsetField (.partCtl k) 62 2 st

/-- The header granule of a partition, after every plate that is HELD (R348). -/
def State.partHeader (s : State) (k : Nat) : Granule := s.pendingGranule (s.partBase k / 16)

/-- What names an object in TRANSFER traffic (R348): the PARTID, or the port's number at the old unit. -/
def State.objectId (s : State) (partition : Bool) (obj : Nat) : Nat := if partition then s.rfield (.partCtl obj) 32 16 else obj

/-- GEN of a header granule, and a header with a new GEN and OWNER. -/
def headerGen (x : Granule) : BitVec 16 := BitVec.ofNat 16 (field x.data 16 16)
def headerWith (x : Granule) (gen : BitVec 16) (owner : UnitAddr) : Granule :=
  { x with data := withField (withField x.data 16 16 gen.toNat) 32 10 owner.toNat, tag := false }

/-- The object's GEN at the old unit, after every plate that is HELD (R348). -/
def State.hoGenNow (s : State) (partition : Bool) (obj : Nat) : BitVec 16 :=
  if partition then headerGen (s.partHeader obj) else BitVec.ofNat 16 (field (s.pendingRxcur obj) 96 16)

/-- HO_STAT. -/
def State.setHoStat (s : State) (st reason : Nat) (gen : BitVec 16) (port : Nat) : State :=
  s.rset .hoStat (BitVec.ofNat 64 (st + reason % 256 * 256 + gen.toNat * 2 ^ 32 + port % 4096 * 2 ^ 48))

/-- The handover event (R358). -/
def State.hoEvent (s : State) (reason : Nat) : State :=
  let x := s.sudon
  s.event 0x0807 7 0 [(1, if x.hoPartition then 1 else 0), (2, x.hoObj), (2, x.hoTarget.toNat), (1, reason)]

/-- The handover plate, with a given GEN and OWNER (R349, R351). -/
def State.handoverPlate (s : State) (gen : BitVec 16) (owner : UnitAddr) : State :=
  let x := s.sudon
  if x.hoPartition then
    s.commitInternal true [(s.partBase x.hoObj / 16, headerWith (s.partHeader x.hoObj) gen owner)] []
  else s.commitInternal true [] [(x.hoObj, withField (s.pendingRxcur x.hoObj) 96 16 gen.toNat)]

/-- The plates of the old unit that a handover plate aborts (R210). -/
def State.movedPlates (s : State) : List Tid :=
  let x := s.sudon
  let base := s.partBase x.hoObj
  let stop := base + s.partBytes x.hoObj
  let inside (l : Nat) : Bool := decide (base ≤ 64 * l) && decide (64 * l < stop)
  (s.threads.filter (fun p => p.2.plate.abortable &&
    (if x.hoPartition then (p.2.plate.reads ++ p.2.plate.writeLines).any inside
     else p.2.plate.ports.contains x.hoObj))).map (fun p => BitVec.ofNat 9 p.1)

/-- Step 2: the handover plate commits (R349). -/
def State.hoCutOff (s : State) : State :=
  let x := s.sudon
  let csn := s.nextCsn
  let s := s.abortAll .migrated s.movedPlates
  let s := if x.hoPartition then s.setPartState x.hoObj 2 else s.modPort x.hoObj (fun p => { p with moved := some (x.hoTarget, x.hoTObj) })
  let s := { s with sudon := { s.sudon with hoStep := .drain, hoCsn := csn } }
  s.handoverPlate x.hoGen x.hoTarget

/-- The second handover plate after a failure: GEN + 2, OWNER this unit; the object resumes (R351). -/
def State.hoRevert (s : State) : State :=
  let x := s.sudon
  let s := { s with sudon := { s.sudon with hoStep := .idle } }
  let s := s.handoverPlate (x.hoGen + 1) s.unitAddr
  if x.hoPartition then s.setPartState x.hoObj 1
  else (s.modPort x.hoObj (fun p => { p with moved := none, away := false, fwdWindow := false })).pumpPort x.hoObj

/-- The arrival plate of port n commits (R349 step 5). -/
def State.arrivalCommits (s : State) (n : Nat) : State :=
  let csn := s.nextCsn
  let mine (j : Incoming) : Bool := j.arrived && !j.partition && decide (j.obj = n)
  let s := { s with sudon := { s.sudon with incoming := s.sudon.incoming.map (fun j => if mine j then { j with csn := some csn } else j) } }
  s.commitInternal false [] [(n, (s.port n).rxcur)]

/-- A request of the unit itself leaves the sequencer's queue. -/
def State.dropOwn (s : State) (w : Committer) : State :=
  { s with etch := { s.etch with queue := s.etch.queue.filter (fun r => decide (r.who ≠ w)) } }

/-- The sequencer takes the unit's own requests when they go next (R198, R208), at most k of them. They wait for journal space without the limit of
R208, which names no abort for them: DESIGN CHOICE (log entry 44). -/
def serveOwn : Nat → State → State
  | 0, s => s
  | k + 1, s =>
    if !s.sequencerRuns then s
    else
      match nextRequest s false s.etch.queue with
      | some .cutOff => serveOwn k (s.dropOwn .cutOff).hoCutOff
      | some .revert => serveOwn k (s.dropOwn .revert).hoRevert
      | some (.arrival n) => serveOwn k ((s.dropOwn (.arrival n)).arrivalCommits n)
      | _ => s

/-- A handover fails with a reason (R351): before step 2 nothing has changed. -/
def State.hoFails (s : State) (reason : Nat) : State :=
  let x := s.sudon
  let after := decide (x.hoStep = .drain) || decide (x.hoStep = .transferring)
  let s := s.hoEvent reason
  let s := s.rset .hoStat (BitVec.ofNat 64 (3 + reason * 256))
  if after then serveOwn 1 (State.requestOwn { s with sudon := { s.sudon with hoStep := .revert } } .revert)
  else State.dropOwn { s with sudon := { s.sudon with hoStep := .idle } } .cutOff

/-- Bytes of the undelivered messages of a port. -/
def Port.backlog (p : Port) : Nat := p.rxq.foldl (fun n d => n + d.len) 0

/-- SD_CMD HO_START (R349). An object that this unit does not hold is ignored. -/
def State.hoStart (s : State) : State :=
  let d := s.rget (.hoDesc 0)
  let e := s.rget (.hoDesc 1)
  let partition := decide (bitsOf d 62 2 = 1)
  let target : UnitAddr := BitVec.ofNat 10 (bitsOf d 32 10)
  let obj := if partition then bitsOf d 0 4 else bitsOf d 0 12
  let held := if partition then decide (s.partState obj = 1) else decide ((s.port obj).state ≠ .free) && (s.port obj).moved.isNone
  if s.rfield .hoStat 0 2 = 1 ∨ s.sudon.hoStep ≠ .idle ∨ !held then s
  else
    let gen := s.hoGenNow partition obj + 1
    let s := { s with sudon := { s.sudon with hoStep := .reserving, hoTarget := target, hoPartition := partition, hoObj := obj, hoGen := gen, hoCsn := 0,
                                              hoTObj := 0 } }
    let s := s.rset .hoStat 1
    if !s.reaches target then s.hoFails 1
    else
      let r : Reservation :=
        { sender := s.unitAddr, partition := partition, gen := gen, obj := obj, tlist := bitsOf e 4 6, tslot := bitsOf e 0 4,
          tbase := bitsOf e 24 22 * 2 ^ 24, size := if partition then s.rfield (.partCtl obj) 0 16 else 0,
          partid := if partition then s.rfield (.partCtl obj) 32 16 else 0, bytes := if partition then 0 else (s.port obj).backlog }
      s.chainOut target (.reserve r target)

/-- The ports of a listener (R326). -/
def State.listenPorts (s : State) (l : Nat) : List Nat :=
  let w := s.rget (.lrange l)
  (List.range (bitsOf w 16 12 + 1)).map (fun k => bitsOf w 0 12 + k)

/-- The lowest FREE, unreserved port of a listener (R295). -/
def State.freeOf (s : State) (l : Nat) : Option Nat :=
  (s.listenPorts l).find? (fun n => decide (n < 4096) && decide ((s.port n).state = .free) && !(s.port n).reserved)

/-- The slot of a listener in bytes. -/
def State.slotBytes (s : State) (l : Nat) : Nat := 2 ^ s.rfield (.lrange l) 32 5

/-- Step 1 at the target (R349): a reservation, or a reason of R351. -/
def State.hoReserve (s : State) (r : Reservation) : State :=
  let id := if r.partition then r.partid else r.obj
  let answer (s : State) (a : ReserveAnswer) : State := s.chainOut r.sender (.reserveAnswer r.sender r.partition id r.gen a)
  let keep (s : State) (obj : Nat) : State :=
    let i : Incoming := { sender := r.sender, partition := r.partition, gen := r.gen, obj := obj, source := id, arrived := false, csn := none, oldCur := 0, proof := 0, package := none }
    { s with sudon := { s.sudon with incoming := s.sudon.incoming ++ [i] } }
  if !s.hasAddr then s
  else if r.partition then
    let inside := decide ((s.rget .durBase).toNat ≤ r.tbase) &&
      decide (r.tbase + r.size * 2 ^ 24 ≤ (s.rget .durBase).toNat + (s.rget .durSize).toNat)
    if s.partState r.tslot = 0 ∧ inside then
      let s := s.rset (.partBase r.tslot) (BitVec.ofNat 64 r.tbase)
      let s := s.rset (.partCtl r.tslot) (BitVec.ofNat 64 (3 * 2 ^ 62 + r.partid % 65536 * 2 ^ 32 + r.size % 65536))
      answer (keep s r.tslot) (.reserved r.tslot)
    else answer s (.refused 5)
  else
    match s.pool r.tlist, s.freeOf r.tlist with
    | some _, some n =>
      if s.slotBytes r.tlist < r.bytes then answer s (.refused 3)
      else answer (keep (s.modPort n (fun p => { p with reserved := true, listener := r.tlist })) n) (.reserved n)
    | _, _ => answer s (.refused 2)

/-- A message is about the handover in progress (R348). -/
def State.hoMatches (s : State) (partition : Bool) (object : Nat) (gen : BitVec 16) : Bool :=
  let x := s.sudon
  decide (partition = x.hoPartition) && decide (object = s.objectId x.hoPartition x.hoObj) && decide (gen = x.hoGen)

/-- The target's answer at the old unit; one about another object or GEN is dropped (R348). -/
def State.hoAnswer (s : State) (partition : Bool) (object : Nat) (gen : BitVec 16) (a : ReserveAnswer) : State :=
  if !s.hoMatches partition object gen then s.rcount (.sdCnt 3)
  else if s.sudon.hoStep ≠ .reserving then s
  else
    match a with
    | .refused reason => s.hoFails reason
    | .reserved obj => serveOwn 1 (State.requestOwn { s with sudon := { s.sudon with hoStep := .cutoff, hoTObj := obj } } .cutOff)

/-- The published granules of a partition that are not as DRAM starts, by their index in it. A granule that a gate denies the Etcher reads as zeros
(R366). -/
def State.partGranules (s : State) (base n : Nat) : State × List (Nat × Granule) :=
  let lo := base / 16
  let hi := lo + n / 16
  let (s, denied, _) := s.etcherReads base n
  let keys : List Nat := (s.mem.map (fun (c : Host.Cell) => c.1 / 16) ++ s.gran.map (·.1) ++ denied).filter (fun g => decide (lo ≤ g) && decide (g < hi))
  let keys := keys.foldl (fun l g => insertNat g l) []
  (s, keys.map (fun g => (g - lo, if denied.contains g then { data := 0, tag := false, colour := 0 } else s.granuleAt g)))

/-- What reading the messages of a port comes to: their bytes, a wait for a held line (R180), or a descriptor error (R325). -/
inductive MessagesRead where
  | ok (l : List MovedMessage) | wait | error (cause addr : Nat)

/-- The messages of a port from the durable cursor on: content type or alert bytes included as delivered. -/
def readMessages (s : State) (p : Port) : List RxDesc → State × MessagesRead
  | [] => (s, .ok [])
  | d :: r =>
    match s.dmaCheck p p.rxbuf (p.rxbuf.base + d.off) d.len false with
    | (s, .ok segs) =>
      let (s, b) := dmaRead s segs
      match readMessages s p r with
      | (s, .ok l) => (s, .ok ({ num := d.num, lead := d.lead, span := d.span, hs := d.hs, bytes := b } :: l))
      | x => x
    | (s, .wait) => (s, .wait)
    | (s, .error c a) => (s, .error c a)

/-- What of a port's entry moves (R349 step 4). -/
def Port.entry (p : Port) : PortEntry :=
  { conf := p.conf, confNext := p.confNext, state := p.state, notice := p.notice, closeReq := p.closeReq, finSent := p.finSent, finRcvd := p.finRcvd,
    finFirst := p.finFirst, finSeen := p.finSeen, finData := p.finData, timeWait := p.timeWait, laddr := p.laddr, raddr := p.raddr, lport := p.lport,
    rport := p.rport, peerMac := p.peerMac, vlan := p.vlan, mac := p.mac, v6 := p.v6, tcb := p.tcb, tls := p.tls, rxSlot := p.rxSlot,
    txSlot := p.txSlot, rxStopped := p.rxStopped, stream := p.stream, cipher := p.cipher, hsQueue := p.hsQueue, skip := p.skip,
    skipDelim := p.skipDelim, spanDone := p.spanDone, msgsIn := p.msgsIn, bytesIn := p.bytesIn, msgsOut := p.msgsOut, txDone := p.txDone,
    policy := p.policy, trunc := p.trunc }

/-- A port that takes an entry which has moved to it (R349 step 5). -/
def Port.withEntry (p : Port) (e : PortEntry) : Port :=
  { p with
    conf := e.conf, confNext := e.confNext, state := e.state, notice := e.notice, closeReq := e.closeReq, finSent := e.finSent, finRcvd := e.finRcvd,
    finFirst := e.finFirst, finSeen := e.finSeen, finData := e.finData, timeWait := e.timeWait, laddr := e.laddr, raddr := e.raddr, lport := e.lport,
    rport := e.rport, peerMac := e.peerMac, vlan := e.vlan, mac := e.mac, v6 := e.v6, tcb := e.tcb, tls := e.tls, rxSlot := e.rxSlot,
    txSlot := e.txSlot, rxStopped := e.rxStopped, stream := e.stream, cipher := e.cipher, hsQueue := e.hsQueue, skip := e.skip,
    skipDelim := e.skipDelim, spanDone := e.spanDone, msgsIn := e.msgsIn, bytesIn := e.bytesIn, msgsOut := e.msgsOut, txDone := e.txDone,
    policy := e.policy, trunc := e.trunc }

/-- Step 4: the package goes to the target (R349), once no line of the receive ring that it reads is held. A ring that cannot be read is a descriptor
error, and the port moves as that leaves it (R325). -/
def State.hoSend (s : State) : State :=
  let x := s.sudon
  let blank : Transfer := { sender := s.unitAddr, partition := x.hoPartition, gen := x.hoGen, obj := x.hoTObj, entry := none, soff := 0,
                            messages := [], granules := [] }
  let sent (s : State) : State := { s with sudon := { s.sudon with hoStep := .transferring } }
  let goes (s : State) (l : List MovedMessage) : State :=
    let p := s.port x.hoObj
    let s := (sent s).chainOut x.hoTarget (.transfer { blank with entry := some p.entry, soff := p.soff, messages := l } x.hoTarget)
    s.modPort x.hoObj (fun p => { p with away := true, fwdWindow := decide (s.rfield .sdCtrl 16 8 ≠ 0) })
  if x.hoPartition then
    let (s, l) := s.partGranules (s.partBase x.hoObj) (s.partBytes x.hoObj)
    (sent s).chainOut x.hoTarget (.transfer { blank with granules := l } x.hoTarget)
  else
    match readMessages s (s.port x.hoObj) (s.port x.hoObj).rxq with
    | (s, .ok l) => goes s l
    | (_, .wait) => s
    | (s, .error c a) => goes (s.descriptorError x.hoObj c a) []

/-- The contents of an INCOMING slot that is given back are undefined: free values (R351). -/
def freeRange (s : State) (g : Nat) : Nat → State
  | 0 => s
  | n + 1 =>
    let (s, a) := s.freeWord
    let (s, b) := s.freeWord
    freeRange (s.setGranule g { data := b ++ a, tag := false, colour := (s.granuleAt g).colour }) (g + 1) n

/-- A reservation is given back. -/
def State.giveBack (s : State) (i : Incoming) : State :=
  let s := { s with sudon := { s.sudon with incoming := s.sudon.incoming.filter (fun j => decide (j ≠ i)) } }
  if i.partition then
    let s := freeRange s (s.partBase i.obj / 16) (s.partBytes i.obj / 16)
    s.setPartState i.obj 0
  else ((s.dropOwn (.arrival i.obj)).freePort i.obj).wakeHeld

/-- A handover wait of 10 ms expires (R351). At a target, what was reserved and has not been acknowledged is given back: no message tells it that the
old unit has failed the handover, so its own wait does: DESIGN CHOICE (log entry 46). -/
def State.hoTimeout (s : State) : State :=
  match s.sudon.hoStep with
  | .reserving => s.hoFails 1
  | .drain => if s.sudon.hoCsn ≤ s.durable then s.hoFails 4 else s
  | .transferring => s.hoFails 6
  | _ =>
    match s.sudon.incoming with
    | i :: _ => s.giveBack i
    | [] => s

/-- The target's acknowledgement (R349 step 6); one about another object or GEN is dropped (R348). -/
def State.hoAcked (s : State) (partition : Bool) (object : Nat) (gen : BitVec 16) : State :=
  let x := s.sudon
  if x.hoStep ≠ .transferring ∨ !s.hoMatches partition object gen then s.rcount (.sdCnt 3)
  else
    let s := (s.hoEvent 0).setHoStat 2 0 x.hoGen (if x.hoPartition then 0 else x.hoTObj)
    let s := if x.hoPartition then s.setPartState x.hoObj 0 else s
    (State.raiseVecReg { s with sudon := { s.sudon with hoStep := .idle } } (.sdVec 2))

/-- Writes messages into the ring of an arriving port (R310, R349); none when one meets a held line (R180). -/
def placeMessages (s : State) (n : Nat) : List MovedMessage → Option State
  | [] => some s
  | m :: r =>
    let p := s.port n
    let len := m.bytes.length
    match p.place len with
    | none => some s
    | some off =>
      match s.dmaCheck p p.rxbuf (p.rxbuf.base + off) len true with
      | (s, .ok segs) =>
        let s := dmaWrite s (chunk segs m.bytes)
        let d : RxDesc := { len := len, off := off, num := m.num % 65536, lead := m.lead, span := m.span, hs := m.hs, freed := off + len }
        placeMessages (s.modPort n (fun p => { p with rxq := p.rxq ++ [d], wOff := off + len })) n r
      | (s, .error c a) => some (s.descriptorError n c a)
      | (_, .wait) => none

/-- The bound port of an arrival (R295, R349 step 5). -/
def State.boundArrival (s : State) (i : Incoming) (x : Transfer) (pool : Pool) (e : PortEntry) : State :=
  let l := (s.port i.obj).listener
  let k := ((s.listenPorts l).findIdx? (fun n => decide (n = i.obj))).getD 0
  let size := s.slotBytes l
  s.modPort i.obj (fun p =>
    ({ Port.reset with
        world := pool.world, listener := l, troot := pool.troot, rxbuf := pool.cap.narrowTo (pool.cap.base + k * size) size,
        bindno := (p.bindno + 1) % 65536, gen := x.gen, soff := x.soff } : Port).withEntry e)

/-- A port arrives: it is bound, its messages stand in its ring, and its arrival plate asks for its commit point; while a message meets a held line the
package waits. -/
def State.arrivePort (s : State) (i : Incoming) (x : Transfer) : State :=
  let mod (s : State) (f : Incoming → Incoming) : State :=
    { s with sudon := { s.sudon with incoming := s.sudon.incoming.map (fun j => if j = i then f j else j) } }
  match s.pool (s.port i.obj).listener, x.entry with
  | some pool, some e =>
    match placeMessages (s.boundArrival i x pool e) i.obj x.messages with
    | none => mod s (fun j => { j with package := some x })
    | some s' =>
      let s' := mod s' (fun j => { j with arrived := true, oldCur := (s.port i.obj).rxcur, package := none })
      (serveOwn 1 (s'.requestOwn (.arrival i.obj))).offerPort i.obj
  | _, _ => s

/-- The Etcher writes n bytes of an arriving partition from lo: a granule that the transfer does not list is zero, and a denied one keeps what it holds
(R366). -/
def arriveGranules (s : State) (lo n : Nat) (img : List (Nat × Granule)) : State :=
  let (s, denied) := s.gateRange .etcher lo n false true
  let inside (g : Nat) : Bool := decide (lo / 16 ≤ g) && decide (g < (lo + n) / 16) && !denied.contains g
  let s := { s with mem := s.mem.filter (fun c => !inside (c.1 / 16)), gran := s.gran.filter (fun c => !inside c.1),
                    ue := s.ue.filter (fun k => !(List.range 4).all (fun j => inside (4 * k.1 + j))) }
  img.foldl (fun s x => if inside (lo / 16 + x.1) then s.setGranule (lo / 16 + x.1) x.2 else s) s

/-- The partition's granules are written by the Etcher and their blocks are dirty; the next proof must cover them (R349). -/
def State.arrivePartition (s : State) (i : Incoming) (x : Transfer) : State :=
  let lo := s.partBase i.obj / 16
  let n := s.partBytes i.obj / 16
  let s := arriveGranules s (s.partBase i.obj) (s.partBytes i.obj) x.granules
  let s := (List.range (n / 256)).foldl (fun s k => s.markGranule (lo + 256 * k)) s
  let next := (s.rget .proofNum).toNat + (if s.etch.proof.isSome then 2 else 1)
  { s with sudon := { s.sudon with incoming := s.sudon.incoming.map (fun j => if j = i then { j with arrived := true, proof := next } else j) } }

/-- A transfer arrives at the target (R349 step 5); one with another GEN is dropped (R348), and a unit without an address takes none (R340). -/
def State.hoArrive (s : State) (x : Transfer) : State :=
  if !s.hasAddr then s
  else
  match s.sudon.incoming.find? (fun i => decide (i.sender = x.sender) && decide (i.partition = x.partition) && decide (i.obj = x.obj)
      && decide (i.gen = x.gen) && !i.arrived && i.package.isNone) with
  | none => s.rcount (.sdCnt 3)
  | some i => if x.partition then s.arrivePartition i x else s.arrivePort i x

/-- Packages that wait for a held line are tried again. -/
def retryArrivals (s : State) : List Incoming → State
  | [] => s
  | i :: r =>
    retryArrivals (match i.package with
      | some x => s.arrivePort i x
      | none => s) r

/-- Arrivals whose plate is durable, or whose proof is complete, are acknowledged (R349 steps 5 and 6). -/
def ackArrivals (s : State) : List Incoming → State
  | [] => s
  | i :: r =>
    let done := i.arrived && (if i.partition then decide (i.proof ≤ (s.rget .proofNum).toNat) else i.csn.any (fun c => decide (c ≤ s.durable)))
    let s := if done then
        let s := if i.partition then s.setPartState i.obj 1 else s
        let s := { s with sudon := { s.sudon with incoming := s.sudon.incoming.filter (fun j => decide (j ≠ i)) } }
        s.wakeHeld.chainOut i.sender (.handoverAck i.sender i.partition i.source i.gen)
      else s
    ackArrivals s r

/-- What goes on once plates have published or durability has moved: the unit's own commit points, arrivals, and the drain of a handover (R198, R349). -/
def State.progress (s : State) : State :=
  let s := serveOwn s.etch.queue.length s
  let s := retryArrivals s s.sudon.incoming
  let s := ackArrivals s s.sudon.incoming
  let x := s.sudon
  match x.hoStep with
  | .drain =>
    if x.hoCsn ≤ s.durable then
      (if x.hoPartition ∨ (s.port x.hoObj).txq.isEmpty then s.hoSend else s)
    else s
  | _ => s

/-! ### Links, probes and lost units (R335, R352) -/

/-- The position list goes out to the ring. -/
def State.sendList (s : State) : State :=
  let o := Output.positions s.sudon.ring s.sudon.order s.ringClosed
  [Link.west, Link.east].foldl (fun s l => if s.linkUp l then s.queueFlits l o else s) { s with out := s.out ++ [o] }

/-- The positions that count down to the west from 63 in a list read westward: those of WEST tokens (R339). DEDUCED (log entry 46): a list does not
say which token gave a position. -/
def countsDown (p : Nat) : List (BitVec 6) → List (BitVec 6)
  | [] => []
  | q :: r => if q.toNat = p then q :: countsDown (p - 1) r else []
def westPositions (order : List (BitVec 6)) : List (BitVec 6) :=
  match posIndex 63 order with
  | some k => if order.length < 64 then countsDown 63 (order.take (k + 1)).reverse else []
  | none => []

/-- SD_RING follows the position list (R343): units, the highest EAST-token and the lowest WEST-token position. -/
def State.setRing (s : State) : State :=
  let o := s.sudon.order
  let west := westPositions o
  let east := (o.filter (fun p => !west.contains p)).foldl (fun m p => max m p.toNat) 0
  let low := match west.getLast? with
    | some p => p.toNat
    | none => 0
  s.rset .sdRing (BitVec.ofNat 64 (o.length % 128 + east * 256 + low * 65536))

/-- The units next to this one in ring order (R339, R343): the WEST link leads to the one before it, the EAST link to the one after it. -/
def State.nextTo (s : State) (l : Link) : Option UnitAddr :=
  let o := s.sudon.order
  let n := o.length
  match posIndex (posOf s.unitAddr) o, l with
  | some i, .west => if i = 0 ∧ !s.ringClosed ∨ n ≤ 1 then none else (o[(i + n - 1) % n]?).map (addrOf s.sudon.ring)
  | some i, .east => if i + 1 = n ∧ !s.ringClosed ∨ n ≤ 1 then none else (o[(i + 1) % n]?).map (addrOf s.sudon.ring)
  | _, _ => none

/-- SD_LINK names the neighbours that the position list gives for links that are up (R339, R343). -/
def State.setNeighbours (s : State) : State :=
  [Link.west, Link.east].foldl (fun s l =>
    match s.nextTo l with
    | some u => if s.linkUp l then s.setNeighbour (linkNo l) (some u) else s
    | none => s) s

/-- SD_REACH of the rings: the own ring shows the units of the list; a unit of another ring is reached through the one at its position, so it is lost
with that one (R338). -/
def State.setReaches (s : State) (order : List (BitVec 6)) : State :=
  let bits := order.foldl (fun w p => w ||| (1 : Word) <<< p.toNat) (0 : Word)
  let own := (ringOf s.unitAddr).toNat
  (List.range 16).foldl (fun s r => if r = own then s.rset (.sdReach r) bits
    else if s.rget (.sdReach r) &&& ~~~bits = 0 then s else s.rset (.sdReach r) (s.rget (.sdReach r) &&& bits)) s

/-- A new position list: routes, SD_RING, SD_REACH and the neighbours (R338, R339). -/
def State.setOrder (s : State) (order : List (BitVec 6)) (closed : Bool) : State :=
  let s := { s with sudon := { s.sudon with order := order } }
  let s := (s.rsetField .sdAddr 14 1 (if closed then 1 else 0)).setRing
  (s.setReaches order).setNeighbours

/-- The ring opened next to position p: p's break stands at the list's ends. -/
def openAt (order : List (BitVec 6)) (k : Nat) : List (BitVec 6) := order.drop k ++ order.take k

/-- What is left of an open chain for this unit when the unit at index k is lost: its own side of the break (R338, R356). -/
def State.ownSide (s : State) (k : Nat) : List (BitVec 6) :=
  let o := s.sudon.order
  if (o.take k).contains (posOf s.unitAddr) then o.take k else o.drop (k + 1)

/-- A unit is lost (R352): event 0x0801, SD_VEC_0, SD_REACH; the ring opens; mirroring and takeover follow. -/
def State.unitLost (s : State) (l : Link) (u : UnitAddr) : State :=
  let s := s.modLink l (fun x => { x with probing := none })
  let s := (s.event 0x0801 7 (linkNo l) [(2, u.toNat), (1, linkNo l)]).raiseVecReg (.sdVec 0)
  let s := { s with sudon := { s.sudon with lost := u :: s.sudon.lost.filter (fun v => decide (v ≠ u)) } }
  let s := s.setNeighbour (linkNo l) none
  let s : State := if ringOf u = ringOf s.unitAddr then
      match posIndex (posOf u) s.sudon.order with
      | some k =>
        let o := if s.ringClosed then (openAt s.sudon.order k).filter (fun p => decide (p ≠ posOf u)) else s.ownSide k
        (s.setOrder o false).sendList
      | none => s.setReach u false
    else s.setReach u false
  let s : State := if (s.sudon.hoStep ≠ .idle ∧ s.sudon.hoStep ≠ .revert) ∧ s.sudon.hoTarget = u then
      s.hoFails (if s.sudon.hoStep = .reserving then 1 else 6) else s
  let s := if s.mirrorTarget = some u ∨ s.mirrorTarget = none then s.chooseMirror else s
  if s.etch.mirrorSrc = some u ∧ (s.rget .sdCtrl).getLsbD 2 then s.startTake u else s

/-- A probe may reach the neighbour by another route: the other way round a closed ring (R352). -/
def State.otherRoute (s : State) (l : Link) : Bool :=
  (decide (l = .west) || decide (l = .east)) && s.ringClosed && s.linkUp (opposite l)

/-- A link goes down (R335, R352): counted, and its neighbour is probed by the other route, or lost where there is none. -/
def State.linkDown (s : State) (l : Link) : State :=
  if !s.linkUp l then s
  else
    let s := (s.rsetField (.sdLink (linkNo l)) 0 5 0).rcount (.sdCnt 1)
    let s := s.modLink l (fun _ => LinkState.reset)
    match s.neighbour (linkNo l) with
    | none => s
    | some u =>
      if s.otherRoute l then
        let s := s.modLink l (fun x => { x with probing := some u })
        s.linkOut (opposite l) (.probe s.unitAddr u (opposite l))
      else s.unitLost l u

/-- The neighbour is alive: link loss only; the ring opens at that link (R352). -/
def State.linkLossOnly (s : State) (l : Link) : State :=
  match (s.link l).probing with
  | none => s
  | some u =>
    let s := s.modLink l (fun x => { x with probing := none })
    let me := posOf s.unitAddr
    let s := match s.ringClosed, posIndex (if l = .east then posOf u else me) s.sudon.order with
      | true, some k => (s.setOrder (openAt s.sudon.order k) false).sendList
      | _, _ => s
    let s := (s.event 0x0802 7 (linkNo l) [(1, linkNo l), (1, 0)]).raiseVecReg (.sdVec 0)
    s.chooseMirror

/-- The largest power of two of good lanes, within the link's own (R335). -/
def lanesUsed (max good : Nat) : Nat := if good ≥ 4 ∧ max ≥ 4 then 4 else if good ≥ 2 then 2 else if good ≥ 1 then 1 else 0

/-- The link to u closes an open chain: this unit and u stand at its two ends (R341). -/
def State.closesRing (s : State) (l : Link) (u : UnitAddr) : Bool :=
  let o := s.sudon.order
  !s.ringClosed && decide (1 < o.length) &&
    (match l with
      | .east => decide (o.getLast? = some (posOf s.unitAddr)) && decide (o.head? = some (posOf u))
      | .west => decide (o.head? = some (posOf s.unitAddr)) && decide (o.getLast? = some (posOf u))
      | _ => false)

/-- Both ends of an open chain are linked: the ring closes again, and the list goes out (R341). -/
def State.closeIfLinked (s : State) : State :=
  match [Link.west, Link.east].find? (fun l => s.linkUp l && (s.neighbour (linkNo l)).any (s.closesRing l)) with
  | some _ => ((s.rsetField .sdAddr 14 1 1).setRing).sendList
  | none => s

/-- A link trains (R335, R341): lanes, events 0x0803 and 0x0802, the neighbour, and the ring closed again. -/
def State.linkTrained (s : State) (l : Link) (good : Nat) (u : Option UnitAddr) : State :=
  let n := lanesUsed (linkLanes l) good
  let k := linkNo l
  if !(s.rget .sdCtrl).getLsbD 0 ∨ s.halted ∨ s.linkUp l ∨ n = 0 then s
  else
    let s := s.rsetField (.sdLink k) 0 5 (2 + n * 4)
    let s := s.modLink l (fun _ => LinkState.reset)
    let s := if n < linkLanes l then s.event 0x0803 7 k [(1, k), (1, n)] else s
    let s := s.setNeighbour k u
    match u with
    | none => s
    | some a =>
      let s := { s with sudon := { s.sudon with lost := s.sudon.lost.filter (fun v => decide (v ≠ a)) } }
      (s.setReach a true).closeIfLinked

/-- A link that was down comes up again (R352, R358). -/
def State.linkUpAgain (s : State) (l : Link) (good : Nat) (u : Option UnitAddr) : State :=
  if s.linkUp l then s
  else
    let s := s.linkTrained l good u
    if !s.linkUp l then s
    else
      let k := linkNo l
      let s := if u.isSome then s.event 0x0802 7 k [(1, k), (1, 2)] else s
      (s.raiseVecReg (.sdVec 0)).chooseMirror

/-- A probe passes through or ends here (R352). A probe for the neighbour whose link here is down answers unreachable; where this unit is
probing that neighbour itself, it is lost. -/
def State.probed (s : State) (origin target : UnitAddr) (via : Link) : State :=
  if target = s.unitAddr ∧ s.hasAddr then s.linkOut via (.probeAnswer origin true)
  else
    let l := opposite via
    if s.linkUp l then s.linkOut l (.probe origin target l)
    else
      let s := s.linkOut via (.probeAnswer origin false)
      if (s.link l).probing = some target then s.unitLost l target else s

/-! ### Flits (R334, R335) -/

/-- A flit's CRC holds, and LEN lies in its range; a LEN of 31 is answered as a failed flit: DESIGN CHOICE (log entry 46). -/
def flitOk (d : List Byte) : Bool :=
  decide (d.length = 256) && decide ((crc64 0 (d.take 248)).toNat = leValue (d.drop 248)) && decide (leValue (d.take 8) / 2 ^ 32 % 32 ≠ 31)

/-- The answer to a flit, with the buffers freed since the last report. -/
def State.answerFlit (s : State) (l : Link) (nak : Bool) (seqNo : BitVec 12) : State :=
  let s := { s with out := s.out ++ [Output.flitAnswer l nak seqNo (s.link l).freed] }
  s.modLink l (fun x => { x with freed := [0, 0, 0] })

/-- A flit's payload: for this unit, or passed on by the route of R338, or dropped and counted where that ends. -/
def State.carries (s : State) (l : Link) (ch : Nat) (data : List Byte) (dest : Option UnitAddr) : State :=
  match dest with
  | none => { s with out := s.out ++ [.delivered l ch data] }
  | some u =>
    if u = s.unitAddr then { s with out := s.out ++ [.delivered l ch data] }
    else
      match s.nextLink u with
      | some k =>
        if s.linkUp k then
          (State.modLink { s with out := s.out ++ [.passedOn k ch data] } k (fun x => x.enqueue ch 1)).pumpLink k
        else s.rcount (.sdCnt 2)
      | none => s.rcount (.sdCnt 2)

/-- A flit arrives: CRC and sequence, then acknowledgement, credits and delivery. `dest` is the unit that its message is for, none for one of the link
itself: the spec gives no coding of messages. Without an address only CONTROL traffic is carried (R340). The number of flits that a NAK makes this unit
send again counts idle flits, so it is not given here: it is at most the 64 it keeps, a free value. A flit out of sequence is answered with NAK and is
no failure of the flit that the link waits for. -/
def State.flit (s : State) (l : Link) (d : List Byte) (dest : Option UnitAddr) : State :=
  if !s.linkUp l then s
  else
    let s := s.active (sudonDomain l) 0 1
    let x := s.link l
    let h : Word := BitVec.ofNat 64 (leValue (d.take 8))
    let seqNo : BitVec 12 := BitVec.ofNat 12 (bitsOf h 52 12)
    if !flitOk d then
      let s := s.modLink l (fun x => { x with failures := x.failures + 1 })
      if x.failures + 1 ≥ 8 then s.linkDown l else s.answerFlit l true x.rxSeq
    else if seqNo ≠ x.rxSeq + 1 then s.answerFlit l true x.rxSeq
    else
      let cred := [bitsOf h 26 6, bitsOf h 20 6, bitsOf h 14 6]
      let ch := bitsOf h 37 2
      let s := (s.modLink l (fun x =>
        { x with rxSeq := seqNo, failures := 0, ackSeq := BitVec.ofNat 12 (bitsOf h 40 12),
                 credits := (x.credits.zip cred).map (fun (c : Nat × Nat) => min 32 (c.1 + c.2)),
                 freed := if ch < 3 then x.freed.set ch (x.freed.getD ch 0 + 1) else x.freed })).pumpLink l
      let s := if h.getLsbD 39 then
          let (s, w) := s.freeWord
          s.rset (.sdCnt 0) (s.rget (.sdCnt 0) + BitVec.ofNat 64 (w.toNat % 65))
        else s
      let len := 8 * bitsOf h 32 5
      let s := if ch < 3 ∧ 0 < len ∧ (s.hasAddr ∨ ch = 0) then s.carries l ch ((d.drop 8).take len) dest else s
      s.answerFlit l false seqNo

/-! ### Enumeration and joining (R339 to R342) -/

/-- Event 0x0804. -/
def State.anomaly (s : State) (k : Nat) : State :=
  s.event 0x0804 7 0 [(1, (Config.anomalyCode k).toNat), (1, s.sudon.ring.toNat)]

/-- The unit stays without an address (R340). -/
def State.noAddress (s : State) (k : Nat) : State := (s.rsetField .sdAddr 15 1 0).anomaly k

/-- The unit takes ring and position, or the override's (R342). -/
def State.takeAddress (s : State) (ring : BitVec 4) (p : BitVec 6) : State :=
  let o := s.rget .sdAddrOvr
  let fixed := o.getLsbD 15
  let u := if fixed then BitVec.ofNat 10 (bitsOf o 0 10) else addrOf ring p
  let s := { s with sudon := { s.sudon with ring := ringOf u, place := p, tokenSeen := true } }
  let s := s.rset .sdAddr (BitVec.ofNat 64 (0x8000 + (if s.straps.anchor then 0x2000 else 0) + (if fixed then 0x1000 else 0) + u.toNat))
  s.answerTailRequests

/-- The anchor takes position 0 (R339). -/
def State.anchorTakes (s : State) : State :=
  if s.hasAddr then s
  else
    let s := s.takeAddress s.straps.ring 0
    s.setOrder [posOf s.unitAddr] false

/-- The anchor sends its token EAST (R339). -/
def State.startToken (s : State) : State :=
  if s.sudon.eastSent ∨ s.sudon.enumDone then s
  else
    State.linkOut { s with sudon := { s.sudon with eastSent := true } } .east
      (.token { own := true, east := true, ring := s.straps.ring, position := 0, order := s.sudon.order })

/-- A token arrives (R339, R340, R342). -/
def State.tokenArrives (s : State) (k : Token) : State :=
  if s.straps.anchor then
    (if k.ring ≠ s.straps.ring ∨ !k.own then s.anomaly 2
     else if !k.east ∨ s.sudon.westSent ∨ s.sudon.enumDone then s
     else
       let s := { s with sudon := { s.sudon with enumDone := true } }
       (s.setOrder k.order true).sendList.chooseMirror)
  else if s.hasAddr ∨ s.sudon.enumDone then s
  else
    let full := if k.east then decide (k.position = 63)
      else (match k.order.getLast? with
        | some e => decide ((k.position - 1).toNat ≤ e.toNat)
        | none => false)
    let s := { s with sudon := { s.sudon with tokenSeen := true, ring := k.ring } }
    let next : Link := if k.east then .east else .west
    if full then (s.noAddress 1).linkOut next (.token k)
    else
      let p := if k.east then k.position + 1 else k.position - 1
      let s := s.takeAddress k.ring p
      let mine := posOf s.unitAddr
      let order := if k.east then k.order ++ [mine] else mine :: k.order
      let s := s.setOrder order false
      if s.linkUp next then s.linkOut next (.token { k with position := p, order := order }) else s.sendList

/-- The token has not returned within 10 ms: an open chain, and a token WEST; with no link there, the list is final (R339). -/
def State.tokenTimeout (s : State) : State :=
  if !s.straps.anchor ∨ s.sudon.enumDone ∨ s.sudon.westSent then s
  else
    let s := s.anchorTakes
    if s.linkUp .west then
      State.linkOut { s with sudon := { s.sudon with westSent := true } } .west
        (.token { own := true, east := false, ring := s.straps.ring, position := 0, order := s.sudon.order })
    else (State.sendList { s with sudon := { s.sudon with enumDone := true } }).chooseMirror

/-- Units that an updated list no longer holds are lost to this unit (R352): a handover to one fails, and a lost source is taken over (R351, R355). -/
def State.listLost (s : State) (gone : List UnitAddr) : State :=
  let s := { s with sudon := { s.sudon with lost := gone ++ s.sudon.lost.filter (fun u => !gone.contains u) } }
  let s := if (s.sudon.hoStep ≠ .idle ∧ s.sudon.hoStep ≠ .revert) ∧ gone.contains s.sudon.hoTarget then
      s.hoFails (if s.sudon.hoStep = .reserving then 1 else 6) else s
  match s.etch.mirrorSrc with
  | some u => if gone.contains u && (s.rget .sdCtrl).getLsbD 2 then s.startTake u else s
  | none => s

/-- The final or an updated position list arrives (R339, R341). To an anchor that still enumerates an end of its open chain returns it: the list of
the east end is not yet final, the list of the west end, which begins west of the anchor, is, and the anchor sends it on. -/
def State.listArrives (s : State) (ring : BitVec 4) (order : List (BitVec 6)) (closed : Bool) : State :=
  let gone := (s.sudon.order.filter (fun p => !order.contains p)).map (addrOf s.sudon.ring)
  let s := { s with sudon := { s.sudon with ring := ring } }
  let s := if s.hasAddr then (s.setOrder order closed).closeIfLinked else s
  if s.straps.anchor && !s.sudon.enumDone then
    (if s.sudon.westSent && decide (order.head? ≠ some (posOf s.unitAddr)) then
      (State.sendList { s with sudon := { s.sudon with enumDone := true } }).chooseMirror
    else s)
  else (State.chooseMirror { s with sudon := { s.sudon with enumDone := true } }).listLost gone

/-- No token or join answer within 1.5 s of the links training (R340). -/
def State.addressTimeout (s : State) : State :=
  if s.straps.anchor ∨ s.hasAddr ∨ s.sudon.enumDone ∨ s.sudon.tokenSeen then s
  else State.noAddress { s with sudon := { s.sudon with enumDone := true } } 0

/-- A neighbour that joins asks for its address (R341): the answer, with the position that the token or the join gave this unit, and the list with the
neighbour's position in it. -/
def State.addressAsked (s : State) (l : Link) : State :=
  if !s.hasAddr then s
  else
    let me := s.sudon.place
    let s := s.linkOut l (.addressAnswer l (ringOf s.unitAddr) me)
    match l with
    | .crossN | .crossS => s
    | _ =>
      let p := if l = .east then me + 1 else me - 1
      let u := addrOf (ringOf s.unitAddr) p
      if (l = .east ∧ me = 63) ∨ s.sudon.order.length ≥ 64 ∧ !s.sudon.order.contains p then s
      else
        let o := s.sudon.order
        let k := (posIndex (posOf s.unitAddr) o).getD 0
        let o' := if o.contains p then o else if l = .east then o.take (k + 1) ++ [p] ++ o.drop (k + 1) else o.take k ++ [p] ++ o.drop k
        let s := (s.setOrder o' s.ringClosed).setNeighbour (linkNo l) (some u)
        let s := { s with sudon := { s.sudon with lost := s.sudon.lost.filter (fun v => decide (v ≠ u)) } }
        s.closeIfLinked.sendList.chooseMirror

/-- The answer of the neighbour on a link (R341). -/
def State.joinAnswered (s : State) (l : Link) (ring : BitVec 4) (p : BitVec 6) : State :=
  if s.hasAddr then s
  else
    match l with
    | .crossN | .crossS => s
    | _ =>
      if l = .west ∧ p = 63 then State.noAddress { s with sudon := { s.sudon with ring := ring } } 1
      else s.takeAddress ring (if l = .west then p + 1 else p - 1)

end Sys2Proof.Machine
end

