-- ==== Sys2Proof/Machine/Services.lean ====
section
/-! DEFINITION. The service core's blocks: calibration store, event recorder, clocks, the firmware image, the boot sequence and the resets
(R23, R60, R377, R395 to R409, R414, R417 to R429, R446, R451). -/

namespace Sys2Proof.Machine

/-! ### Who writes (R269) -/

/-- A tile thread at VS. -/
def State.isVs (s : State) : Master → Bool
  | .tile t => decide ((s.thr t).world = .vault) && decide ((s.thr t).level = .supervisor)
  | _ => false

/-- The thread id of a master that is a tile, 0 for any other (R416). -/
def masterTid : Master → Nat
  | .tile t => t.toNat
  | _ => 0

/-! ### Calibration store (R395 to R397) -/

/-- CRC-32 over the first bytes of a page, and the stored CRC. -/
def pageCrc (p : List (Nat × Byte)) : Nat := (crc32 (bytesAt p 0 0x1FFC)).toNat
def storedCrc (p : List (Nat × Byte)) : Nat := leValue (bytesAt p 0x1FFC 4)

/-- The page is valid: CRC and magic (R397). -/
def pageOk (p : List (Nat × Byte)) : Bool := decide (pageCrc p = storedCrc p) && decide (leValue (bytesAt p 0 4) = 0x43414C42)

/-- Event 0x0903. -/
def State.calRefused (s : State) (why : Nat) : State :=
  State.event { s with cal := { s.cal with keys := 0 } } 0x0903 9 0 [(1, (Config.calReason why).toNat), (2, s.cal.erases)]

/-- A write from outside VS is dropped (R396). -/
def State.calDropped (s : State) (m : Master) (off : Nat) : State := s.event 0x0904 9 0 [(1, masterCode m), (2, off)]

/-- CAL_KEY (R396): the two values within 1 ms of each other. -/
def State.writeCalKey (s : State) (m : Master) (v : Word) : State :=
  if !s.isVs m then s.calDropped m 0x2000
  else
    let c := s.cal
    if v = 0x0CA1 then { s with cal := { c with keys := 1, keyAt := s.timeNow } }
    else if v = 0x05E7 ∧ c.keys = 1 ∧ s.timeNow ≤ c.keyAt + 100000 then { s with cal := { c with keys := 2 } }
    else { s with cal := { c with keys := 0 } }

/-- CAL_CMD (R396). -/
def State.writeCalCmd (s : State) (m : Master) (v : Word) : State :=
  if !s.isVs m then s.calDropped m 0x2008
  else if v ≠ 1 ∨ s.cal.busy then s
  else if s.cal.keys ≠ 2 then s.calRefused 2
  else if s.cal.erases ≥ 1000 then s.calRefused 1
  else if pageCrc s.cal.staging ≠ storedCrc s.cal.staging then s.calRefused 0
  else { s with cal := { s.cal with busy := true, failed := false, keys := 0 } }

/-- The rewrite ends (R396). What a page that fails verification holds is not given: the old page or an invalid one, a free choice. -/
def State.calRewritten (s : State) (verified : Bool) : State :=
  if !s.cal.busy then s
  else
    let c := s.cal
    if verified then
      let s := { s with cal := { c with busy := false, page := c.staging, erases := c.erases + 1, defaults := false } }
      (s.rsetField .bwStat 4 1 0).event 0x0902 9 0 [(2, c.erases + 1)]
    else
      let (s, w) := s.freeWord
      let s := { s with cal := { c with busy := false, failed := true, erases := c.erases + 1, page := if w.getLsbD 0 then c.page else [] } }
      s.calRefused 3

/-- A power loss cuts a rewrite short: the old page or an invalid one is left, a free choice (R396). -/
def State.calLost (s : State) : State :=
  let (s, w) := s.freeWord
  let page := if s.cal.busy ∧ !w.getLsbD 0 then [] else s.cal.page
  { s with cal := { s.cal with page := page, busy := false, keys := 0, staging := [] } }

/-- The store is read at boot (R397). What it reads while a rewrite goes on is not given: the old page or an invalid one, a free choice. -/
def State.bootCal (s : State) : State :=
  let (s, w) := s.freeWord
  let page := if s.cal.busy ∧ !w.getLsbD 0 then [] else s.cal.page
  let ok := pageOk page
  let s := { s with cal := { s.cal with keys := 0, staging := if s.cal.busy then s.cal.staging else [], defaults := !ok } }
  if ok then s.rsetField .bwStat 4 1 0
  else (s.event 0x0901 9 0 [(4, storedCrc page), (4, pageCrc page)]).setBwStat 4

/-! ### Recorder (R399 to R409) -/

/-- A record's 32 bytes (R401, R402). -/
def eventRecord (k : Nat) (e : Event) (suppressed : Nat) : List Byte :=
  let b := leBytes 4 k ++ leBytes 2 e.code.toNat ++ leBytes 2 e.source.toNat ++ sliceBytes e.payload 0 18 ++ leBytes 2 (min 65535 suppressed)
  b ++ leBytes 4 (crc32 b).toNat

/-- The recorder writes the first queued event (R405 to R408). -/
def State.writeRecord (s : State) : State :=
  let r := s.recorder
  match r.queue with
  | [] => s
  | e :: rest =>
    let code := e.code.toNat
    let d := eventRecord r.count e (Map.get 0 r.suppressed code)
    let k := slotOf r.count
    let s := { s with recorder := { r with slots := Map.set r.slots k d, count := r.count + 1, queue := rest, suppressed := Map.erase r.suppressed code } }
    let s := if k = 127 then s.rsetField .recStat 0 1 1 else s
    let s := if r.count ≥ 1024 then s.rsetField .recStat 1 1 1 else s
    let h := code / 256
    if 1 ≤ h ∧ h ≤ 10 ∧ (s.rget .recCtrl).getLsbD (16 + h) then s.raiseVecReg .recVec else s

/-- A write of REC_CURSOR (R409). -/
def State.writeCursor (s : State) (v : Word) : State := (s.rset .recCursor (fieldWrite (s.rget .recCursor) v (RName.recCursor.fields s.i20))).takeSnapshot

/-- A new rate window (R406). -/
def State.newWindow (s : State) : State := { s with recorder := { s.recorder with admitted := [] } }

/-- VDD_AON comes into range (R399, R400, R408): slots, counts and REC_CURSOR cleared, record 0x0100 first. -/
def State.aonPowerUp (s : State) : State :=
  let s := { s.calLost with recorder := { Recorder.reset with slots := [] } }
  let s := (((s.rset .recCursor 0).rset .recStat 0).rset .recSupp 0).rset .recDrop 0
  let s := (s.rset .recCtrl (RName.recCtrl.reset s.i20 true)).rset .recVec 0
  (s.rsetField .resetCause 0 1 1).event 0x0100 11 0 []

/-! ### VDBG_AUTH (R414) -/

/-- A write of VDBG_AUTH. -/
def State.writeVdbg (s : State) (m : Master) (v : Word) : State :=
  if !s.isVs m then s.event 0x0A03 10 0 [(1, masterCode m), (2, masterTid m)]
  else
    let new := v.getLsbD 0
    if new = (s.rget .vdbgAuth).getLsbD 0 then s
    else (s.rsetField .vdbgAuth 0 1 (if new then 1 else 0)).event 0x0A02 10 0 [(1, if new then 1 else 0), (2, masterTid m)]

/-! ### Clocks and the bridge (R23, R377) -/

/-- The unit stops (R23): no further CSN, the Sudon links down, PHASE FAILED with REASON 4, tiles stopped. -/
def State.unitStops (s : State) : State :=
  let s := [Link.west, .east, .crossN, .crossS].foldl (fun s l => (s.rsetField (.sdLink (linkNo l)) 0 5 0).modLink l (fun _ => LinkState.reset)) s
  let s := { s with halted := true }
  (s.rsetField .bootStat 8 4 4).setPhase 15

/-- A bridge transfer failed 16 times (R23): the tiles stop. -/
def State.bridgeFails (s : State) (direction : Bool) : State :=
  s.unitStops.event 0x0107 0 0 [(1, if direction then 1 else 0), (1, 16)]

/-- The PLL loses lock or REFCLK is absent for 2.5 µs (R377). -/
def State.pllLost (s : State) (refclk : Bool) : State :=
  let s := s.rsetField .clkStat 3 1 0
  let s := if refclk then s.rsetField .clkStat 2 1 0 else s
  (s.event 0x0206 0 0 [(1, s.rfield .clkStat 0 8)]).unitStops

/-- MAC link up or down (R302, R329). -/
def State.macLink (s : State) (m : Nat) (up : Bool) : State := s.rsetField (.macCtrl m) 2 1 (if up then 1 else 0)

/-- ETHREF is lost: the MAC links go down (R377). -/
def State.ethrefLost (s : State) : State :=
  let s := s.rsetField .clkStat 1 1 0
  let s := (List.range 8).foldl (fun s m => s.macLink m false) s
  State.event { s with bellows := { s.bellows with etherLost := true } } 0x0207 0 0 [(1, s.rfield .clkStat 0 8)]

/-- ETHREF returns. -/
def State.ethrefBack (s : State) : State :=
  let s := s.rsetField .clkStat 1 1 1
  State.event { s with bellows := { s.bellows with etherLost := false } } 0x0207 0 0 [(1, s.rfield .clkStat 0 8)]

/-! ### Root ports (R434) -/

/-- A root port trains and accepts or rejects its drive: class code 01 08 02 and version 1.4 or later. -/
def State.rootPortUp (s : State) (n speed width : Nat) (cls : BitVec 24) (version : BitVec 32) : State :=
  if !(s.rget (.rpCtrl n)).getLsbD 0 ∨ s.power 96 = .off then s
  else
    let speed := min speed (s.rfield (.rpCtrl n) 1 3)
    let ok := decide (cls = 0x010802) && decide (0x00010400 ≤ version.toNat)
    let s := s.rset (.rpStat n) (BitVec.ofNat 64 (1 + speed * 2 + width % 32 * 32 + (if ok then 1024 else 2048)))
    let s := if ok then s else s.event 0x0106 0 0 [(1, n), (4, cls.toNat), (4, version.toNat)]
    if n = 0 then s.answerTailRequests else s

/-- A lost link of root port 0 is a failed drive command (R245, R434). The event's command is the one at hand; with none it is not given: free. -/
def State.rootPortDown (s : State) (n : Nat) : State :=
  if !(s.rget (.rpStat n)).getLsbD 0 then s
  else
    let s := s.rset (.rpStat n) 0
    if n ≠ 0 then s
    else
      let (s, w) := s.freeWord
      let (s, v) := s.freeWord
      match s.etch.nvme.find? (fun c => decide (c ≠ NvmeCmd.zeroHeader)) with
      | some c => s.driveError (s.commandAt c).1 (s.commandAt c).2 (v.toNat % 65536)
      | none => if s.journalOpen ∨ s.etchBit 7 then s.driveError (w.toNat % 256) (w.toNat / 256) (v.toNat % 65536) else s

/-! ### Boot (R421 to R429) -/

/-- A boot that fails (R424): PHASE FAILED with a reason, event 0x0104. -/
def State.bootFails (s : State) (reason : Nat) : State :=
  ((s.rsetField .bootStat 8 4 reason).setPhase 15).event 0x0104 0 0 [(1, reason)]

/-- PHASE FAILED. -/
def State.bootFailed (s : State) : Bool := decide (s.rfield .bootStat 0 4 = 15)

/-- Step 8: tile 0 thread 0 starts at VS with the root capability (R60); event 0x0102 with BOOT_STAT and elapsed ms. -/
def State.releaseTiles (s : State) : State :=
  let th := { Thread.reset with st := .ready, pcc := Cap.root s.boot.entryAddr.toNat, world := .vault, level := .supervisor }
  let th := th.setReg 1 (Cap.root 0)
  let s := (s.setThr 0 th).setPhase 8
  State.event { s with boot := { s.boot with released := true, hostLocked := false } } 0x0102 0 0
    [(4, s.rfield .bootStat 0 32), (8, (s.timeNow - s.boot.startedAt) / 100000)]

/-- A boot-configuration word of an image (R425). -/
def bootWord (header : List Byte) (k : Nat) : Nat := leValue (sliceBytes header (0x30 + 8 * k) 8)

/-- Step 7 writes the Etcher's registers from the image (R421), by the field rule. -/
def State.writeBootConfig (s : State) (header : List Byte) : State :=
  let put (s : State) (r : RName) (k : Nat) : State := s.rset r (fieldWrite (s.rget r) (BitVec.ofNat 64 (bootWord header k)) (r.fields s.i20))
  let s := put (put (put (put s .durBase 0) .durSize 1) .fmtid 2) .jringLba 3
  let s := put (put (put s .jringBlocks 4) .imgLba 5) .spillLba 6
  s.writeEtchCtrl (BitVec.ofNat 64 (bootWord header 7))

/-- The steps that follow once what they wait for is there: 7 after 5 and 6, where the image's DUR_SIZE is not 0, and 8 after OPEN (R421). -/
def State.bootOn (s : State) : State :=
  let b := s.boot
  if b.released ∨ s.bootFailed ∨ !b.step5 ∨ !b.step6 ∨ s.rfield .bootStat 0 4 = 7 then s
  else if bootWord b.image 1 = 0 then s.releaseTiles
  else State.startOpen ((s.setPhase 7).writeBootConfig b.image)

/-- The bytes of a header that R425 requires to be zero. -/
def headerZeros (h : List Byte) : Bool :=
  (sliceBytes h 0x2C 4 ++ sliceBytes h 0x70 0x50 ++ sliceBytes h 0x120 0x60 ++ sliceBytes h 0x1E0 0x20).all (fun b => decide (b = 0))

/-- The requirements of R425 in their order, numbered from 1: none when the header meets them. -/
def State.headerCheck (s : State) (h : List Byte) : Option Nat :=
  let word (off n : Nat) : Nat := leValue (sliceBytes h off n)
  let len := word 8 8
  let load := word 16 8
  if word 0 4 ≠ 0x38365454 then some 1
  else if word 4 4 ≠ 1 then some 2
  else if len % 16 ≠ 0 ∨ len < 16 ∨ 0xF00000 < len then some 3
  else if load % 16384 ≠ 0 ∨ !s.isDram load ∨ !s.isDram (load + len - 1) ∨
      (bootWord h 1 ≠ 0 ∧ load < bootWord h 0 + bootWord h 1 ∧ bootWord h 0 < load + len) then some 4
  else if word 24 8 % 4 ≠ 0 ∨ len ≤ word 24 8 then some 5
  else if !headerZeros h then some 6
  else none

/-- The checks of key and signature (R426), numbered on; a body that is not as long as the header says fails as its length does. -/
def State.signatureCheck (s : State) (h body : List Byte) : Option Nat :=
  let pub := sliceBytes h 0xC0 96
  if body.length ≠ leValue (sliceBytes h 8 8) then some 3
  else if s.keyHash ≠ 0 ∧ Config.sha384 pub ≠ s.keyHash then some 7
  else if !Config.signatureVerifies pub (sliceBytes h 0x180 96) (Config.sha384 (h.take 0x180 ++ body)) then some 8
  else none

/-- An image is accepted (R425, R426): FW_VER, SUBSYS, the boot configuration, and event 0x0A06 with an unprogrammed KEYHASH. -/
def State.acceptImage (s : State) (h : List Byte) : State :=
  let ver := leValue (sliceBytes h 0x20 8)
  let s := s.rset .fwVer (BitVec.ofNat 64 ver)
  let s := if s.keyHash = 0 then s.event 0x0A06 0 0 [(8, ver)] else s
  let b := s.boot
  let s := { s with boot := { b with step5 := true, image := h, subsys := BitVec.ofNat 32 (leValue (sliceBytes h 0x28 4)),
                                     entryAddr := BitVec.ofNat 54 (leValue (sliceBytes h 16 8) + leValue (sliceBytes h 24 8)) } }
  (if s.boot.step6 then s else s.setPhase 6).bootOn

/-- A copy is rejected: event 0x0103 with source, copy and the check that failed. The numbering of checks is not given: free. -/
def State.rejectImage (s : State) (host : Bool) (copy check : Nat) : State :=
  s.event 0x0103 0 0 [(1, if host then 1 else 0), (1, copy), (1, (Config.imageCheckCode check).toNat)]

/-- The flash copy being read: none once both are rejected. -/
def State.waitHost (s : State) : State := State.setPhase { s with boot := { s.boot with hostLocked := false } } 4

/-- Step 5 starts: flash, host, or an illegal BOOTSRC (R420, R421, R427). -/
def State.startLoad (s : State) : State :=
  if s.straps.bootsrc = 3 then s.bootFails 1
  else if s.straps.bootsrc = 1 then s.waitHost
  else s.setPhase 3

/-- The service core writes the body to LOAD_ADDR as it reads it, through the gates (R423, R427): whether it could. -/
def State.loadBody (s : State) (h body : List Byte) : State × Bool :=
  match s.busWrite .service (leValue (sliceBytes h 16 8)) body with
  | (s, .ok) => (s, true)
  | (s, _) => (s, false)

/-- A flash copy is rejected: the next source (R427). COPY says which copy it is. -/
def State.copyRejected (s : State) (check : Nat) : State :=
  let copy := s.rfield .bootStat 16 1
  let s := s.rejectImage false copy check
  if copy = 0 then (s.rsetField .bootStat 16 1 1).setPhase 3
  else
    let s := s.rsetField .bootStat 16 1 0
    if s.straps.bootsrc = 2 then s.waitHost else s.bootFails 3

/-- A flash copy has been read and is checked (R427): accepted, or the next source. Where a gate denies the service core, boot goes no further
(R372). -/
def State.imageRead (s : State) (h body : List Byte) : State :=
  if s.rfield .bootStat 0 4 ≠ 3 then s
  else
    match s.headerCheck h with
    | some c => s.copyRejected c
    | none =>
      match s.loadBody h body with
      | (s, false) => s
      | (s, true) =>
        let s := s.setPhase 5
        match s.signatureCheck h body with
        | none => s.acceptImage h
        | some c => s.copyRejected c

/-- The host's image is rejected (R427). -/
def State.hostRejected (s : State) (check : Nat) : State := (s.rejectImage true 0 check).waitHost

/-- The host's image (R427): the header at the address in MB_H2U_0, the body already at LOAD_ADDR. Where a gate denies the service core, boot goes
no further (R372). -/
def State.hostImage (s : State) : State :=
  let s := State.setPhase { s with boot := { s.boot with hostLocked := true } } 5
  match s.busRead .service (s.rget (.mbH2u 0)).toNat 512 with
  | (s, .ok, h) =>
    (match s.headerCheck h with
      | some c => s.hostRejected c
      | none =>
        match s.busRead .service (leValue (sliceBytes h 16 8)) (leValue (sliceBytes h 8 8)) with
        | (s, .ok, body) =>
          (match s.signatureCheck h body with
            | none => s.acceptImage h
            | some c => s.hostRejected c)
        | (s, _) => s)
  | (s, _) => s

/-- MB_H2U_DB becomes 1: an image in WAIT_HOST, else the vector (R427, R428). -/
def State.ringH2u (s : State) : State :=
  let was := (s.rget .mbH2uDb).getLsbD 0
  let s := s.rset .mbH2uDb 1
  let s := if was then s else s.raiseVecReg .mbH2uVec
  if s.rfield .bootStat 0 4 = 4 then s.hostImage else s

/-- MB_U2H_DB is set by the unit: MSI-X vector 1 on a change (R428). -/
def State.ringU2h (s : State) : State :=
  let was := (s.rget .mbU2hDb).getLsbD 0
  let s := s.rset .mbU2hDb 1
  if was then s else s.raiseMsix 1

/-- HOST_IRQ (R428). -/
def State.writeHostIrq (s : State) (v : Word) : State :=
  let n := bitsOf v 0 11
  if 8 ≤ n then s.raiseMsix n else s

/-- Step 6 is done (R421). -/
def State.step6Done (s : State) : State := State.bootOn { s with boot := { s.boot with step6 := true } }

/-- DRAM is trained: capacities, failed channels, then step 4 and 5 (R22, R59, R421, R422, R455). -/
def markChannels (s : State) : Nat → List ChannelResult → State
  | _, [] => s
  | n, .usable b :: r => markChannels { s with channels := Map.set s.channels n { bytes := b, failed := none, initDone := false } } (n + 1) r
  | n, .failed x :: r =>
    let s := State.setPower { s with channels := Map.set s.channels n { bytes := 0, failed := some x, initDone := true } } (80 + n) .off
    markChannels (s.event 0x0305 2 n [(1, n), (1, x)]) (n + 1) r

/-- The clocks and the links once step 3 has ended (R377, R391, R421): CLK_STAT, which reads 0 after a reset, shows the PLL, REFCLK and ETHREF, and a
link that has not trained within its 100 ms is down. That step 3 shows this is DESIGN CHOICE (log entry 48). -/
def State.stepThree (s : State) : State :=
  let s := s.rset .clkStat (if s.bellows.etherLost then 0xC else 0xE)
  (List.range 4).foldl (fun s k => if s.rfield (.sdLink k) 0 2 = 1 then s.rsetField (.sdLink k) 0 2 0 else s) s

/-- DDR5 training ends (R421, R422). -/
def State.ddrTrained (s : State) (l : List ChannelResult) : State :=
  if s.rfield .bootStat 0 4 ≠ 1 ∨ s.bootFailed then s
  else if s.boot.ddrTrained then
    let s := s.stepThree
    State.startLoad { (s.setPhase 2) with boot := { s.boot with step3 := true, step4 := true } }
  else
    let s := s.stepThree
    let s := markChannels s 0 (l.take 8)
    let s := { s with boot := { s.boot with ddrTrained := true, step3 := true } }
    if s.installed = 0 then s.bootFails 2
    else State.startLoad { (s.setPhase 2) with boot := { s.boot with step4 := true } }

/-- Every channel has finished its initialisation (R422, R429). -/
def State.dramInit (s : State) : State :=
  if !s.boot.step4 then s
  else
    let s := { s with channels := s.channels.map (fun (c : Nat × Channel) => (c.1, { c.2 with initDone := true })) }
    s.rsetField .bootStat 18 1 1

/-- Training of the links of step 2 (R421): next to a unit with an address this unit joins, whatever its straps say (R341); else the anchor takes
position 0 and sends its token EAST (R339). -/
def State.trained (s : State) : Trained → State
  | .endpoint => { s with boot := { s.boot with epLinkUp := true } }
  | .sudon l lanes u =>
    let s := s.linkTrained l lanes u
    let s := { s with boot := { s.boot with linksUp := true } }
    if u.isSome then
      (if !s.hasAddr ∧ (l = .west ∨ (l = .east ∧ !s.linkUp .west)) then s.linkOut l (.addressRequest l) else s)
    else if s.straps.anchor ∧ (l = .west ∨ l = .east) then
      let s := s.anchorTakes
      if l = .east then s.startToken else s
    else s

/-! ### Resets (R417 to R419, R451) -/

/-- The registers a reset clears: all but those of `keep`. -/
def State.clearRegs (s : State) (keep : Nat → Bool) : State := { s with regs := s.regs.filter (fun p => keep p.1) }

/-- Registers of the recorder block that survive every reset but VDD_AON's (R399, R408). -/
def keptAlways (a : Nat) : Bool := (decide (mmioBase + 0x20000 ≤ a) && decide (a < mmioBase + 0x20100)) || decide (a = mmioBase + 0x10)

/-- What a warm reset keeps besides: gate regions and locks, Sudon's address, links and routes, the MSI-X table (R370, R418, R419), and the counters
SD_CNT, which the links go on counting: DESIGN CHOICE (log entry 41). -/
def keptWarm (a : Nat) : Bool :=
  keptAlways a || (decide (mmioBase + 0x40000 ≤ a) && decide (a < mmioBase + 0x50000) && decide (a % 0x1000 < 0x400)) ||
    (decide (mmioBase + 0x50000 ≤ a) && decide (a < mmioBase + 0x50040)) || (decide (mmioBase + 0x50200 ≤ a) && decide (a < mmioBase + 0x50320)) ||
    (decide (mmioBase + 0x8000 ≤ a) && decide (a < mmioBase + 0x10000))

/-- A tile after a warm reset: CYCLES goes on (R87). -/
def Tile.again (x : Tile) : Tile := { Tile.reset with cycles := x.cycles }

/-- Threads after a reset are EMPTY; the status word of a last plate survives no reset (R65, R214). -/
def State.resetThreads (s : State) : State :=
  { s with threads := [], tiles := s.tiles.map (fun (p : Nat × Tile) => (p.1, p.2.again)), ctlb := [], busWaits := [], invals := [] }

/-- What both resets do to the unit's blocks. Pending stores, plates and outstanding results are lost with their threads. -/
def State.resetCommon (s : State) (keep : Nat → Bool) : State :=
  let s := (s.resetThreads).clearRegs keep
  { s with l2 := [], gateOld := [], gateMark := [], rawStopped := [], etch := Etcher.reset, pools := [], keys := [], stagedKey := 0, stagedIv := 0, halted := false, rawWaits := [], posted := [],
           ports := s.ports.map (fun p => (p.1, Port.reset.withRxcur p.2.rxcur)), dbg := { s.dbg with thrSel := 0, regSel := 0, status := 0, data := 0 } }

/-- RESET_CAUSE and event 0x0101. -/
def State.resetTaken (s : State) (bit : Nat) : State :=
  let s := s.rsetField .resetCause bit 1 1
  s.event 0x0101 0 0 [(1, s.rfield .resetCause 0 8)]

/-- Causes that a reset finds: THERMTRIP, a power-fail drain completed (R428). -/
def State.noteCauses (s : State) : State :=
  let s := if s.thermTrip then s.rsetField .resetCause 3 1 1 else s
  if s.etchBit 10 then s.rsetField .resetCause 4 1 1 else s

/-- UNIT_ID and STRAPS after a reset (R428). -/
def State.identity0 (s : State) : State :=
  let st := s.straps
  let s := s.rset .unitId (BitVec.ofNat 64 (0x6408 + 0x10000 + (if s.i20 then 0x100000 else 0)))
  s.rset .straps (BitVec.ofNat 64 ((if st.anchor then 1 else 0) + st.ring.toNat * 2 + st.bootsrc.toNat * 32 + (if st.mirrorEn then 128 else 0)))

/-- The Sudon links train from step 2 on (R343, R421). -/
def State.startTraining (s : State) : State := (List.range 4).foldl (fun s k => s.rsetField (.sdLink k) 0 2 1) s

/-- PORST_N rises: cold reset (R417, R418, R420, R421). DRAM takes zero data, tag 0 and colour 15 (R59). -/
def State.coldReset (s : State) (straps : Straps) : State :=
  if !s.boot.porst then s
  else
    let s := { (s.noteCauses) with straps := straps }
    let s := s.resetCommon keptAlways
    let s := { s with tiles := [], mem := [], gran := [], ue := [], weak := [], sramErr := [], ports := [], channels := [], sudon := Sudon.reset, bellows := Bellows.reset,
                      boot := { Boot.reset with porst := false }, timeNow := 0, msix := { enable := false, functionMask := false, pending := [] }, thermTrip := false }
    let s := { s with bellows := { s.bellows with bucket := s.reserveLevel } }
    let s := (s.identity0.resetTaken 1).bootCal
    s.startTraining.setPhase 1

/-- PORST_N falls: the unit is held in cold reset; a power-fail drain is abandoned (R417). -/
def State.porstFalls (s : State) : State :=
  { s with halted := true, boot := { s.boot with porst := true }, etch := { s.etch with draining := false, warmPending := false, pfailFilter := false, nvme := [] },
           dbg := { s.dbg with ir := .idcode, everXfer := false } }

/-- A warm reset as it takes effect (R418, R419, R421). Step 6 is skipped. PLAN.SEQ and ENERGY count since cold reset (R391, R393); that the bucket keeps
its level is DESIGN CHOICE (log entry 41). -/
def State.warmNow (s : State) : State :=
  let init := s.rfield .bootStat 18 1
  let plans := s.rfield .plan 32 32
  let s := (s.noteCauses).resetCommon keptWarm
  let s := (((s.identity0).rsetField .bootStat 18 1 init).rsetField .plan 32 32 plans).setTarget none
  let b := s.boot
  let boot : Boot := { Boot.reset with porst := false, ddrTrained := b.ddrTrained, step6 := true, epLinkUp := b.epLinkUp, linksUp := b.linksUp, startedAt := s.timeNow }
  let bellows : Bellows := { Bellows.reset with bucket := s.bellows.bucket, energy := s.bellows.energy }
  let sudon : Sudon := { s.sudon with hoStep := .idle, incoming := [], take := .idle, takeReplay := none }
  let s := { s with boot := boot, bellows := bellows, sudon := sudon }
  ((s.resetTaken 2).bootCal).setPhase 1

/-- WARMRST_N (R417): ignored under PORST_N and THERMTRIP; a cold reset before DDR5 training; waits for a running drain. -/
def State.warmReset (s : State) : State :=
  if s.boot.porst ∨ s.thermTrip then s
  else if !s.boot.ddrTrained then State.coldReset { s with boot := { s.boot with porst := true } } s.straps
  else if s.etch.draining then { s with etch := { s.etch with warmPending := true } }
  else s.warmNow

/-- A supply leaves its range (R446): without hold-up the unit fails as a unit; VDD_AON's loss loses the recorder too. -/
def State.railLost (s : State) (aon : Bool) : State :=
  let s := s.porstFalls
  if aon then { s with recorder := Recorder.reset } else s

/-- EP_PERST_N (R451): the endpoint's link, configuration space and MSI-X table. -/
def State.epReset (s : State) : State :=
  let s := s.clearRegs (fun a => !(decide (mmioBase + 0x8000 ≤ a) && decide (a < mmioBase + 0x10000)))
  { s with msix := { enable := false, functionMask := false, pending := [] }, boot := { s.boot with epLinkUp := false } }

end Sys2Proof.Machine
end

