-- ==== Sys2Proof/Machine/Device.lean ====
section
/-! DEFINITION. Accesses to the SRAMs of the port die and to the registers of the 0x3F00 blocks: width and alignment (R12), reserved
offsets (R30, R33), and the behaviour of each register that has one (R10, R287, R307, R326, R343, R368 to R370, R391, R395, R407, R428). -/

namespace Sys2Proof.Machine

/-! ### Gates (R368, R370, R373) -/

/-- GATE_SYNC: the tables before this moment will be dropped (R368). Ignored on GATE_8 to GATE_11. -/
def State.startSync (s : State) (g : Nat) : State :=
  if g < 8 then
    let s := s.rsetField (.gateStat g) 0 1 1
    { s with gateMark := Map.set s.gateMark g (Map.get [] s.gateOld g).length }
  else s

/-- Every slice has dropped the decisions of the tables before the GATE_SYNC. -/
def State.syncDone (s : State) (g : Nat) : State :=
  if s.rfield (.gateStat g) 0 1 = 0 then s
  else
    let rest := (Map.get [] s.gateOld g).drop (Map.get 0 s.gateMark g)
    let s := { s with gateOld := Map.put [] s.gateOld g rest, gateMark := Map.erase s.gateMark g }
    s.rsetField (.gateStat g) 0 1 0

/-- A write of a region register (R360, R370): ignored once locked. -/
def State.writeRegion (s : State) (g r : Nat) (n : RName) (v : Word) : State :=
  if s.isLocked g r then s else (s.keepGateTable g).rset n (fieldWrite (s.rget n) v (n.fields s.i20))

/-- A write of RATTR_r (R362, R370): only a Vault-world tile sets LOCK; any other attempt leaves event 0x0405. -/
def State.writeAttr (s : State) (m : Master) (g r : Nat) (v : Word) : State :=
  if s.isLocked g r then s
  else
    let s := s.writeRegion g r (.gAttr g r) v
    if !v.getLsbD 63 then s
    else if s.vaultTile m then s.rsetField (.gAttr g r) 63 1 1
    else s.event 0x0405 3 g [(1, g), (1, r), (1, masterCode m)]

/-! ### Interrupt controllers (R287, R288) -/

/-- The tile wakes if a vector of it is due for a thread (R380). -/
def State.wakeForVectors (s : State) (n : Nat) : State :=
  if (List.range 8).any (fun k => !(s.dueVectors (BitVec.ofNat 9 (8 * n + k))).isEmpty) then s.wakeGated n else s

/-- A write of VCFG_v (R288). -/
def State.writeVcfg (s : State) (m : Master) (n v : Nat) (w : Word) : State :=
  if !s.reachesVector m n v then s
  else
    let fields : List Field := [⟨8, 3, fun _ => true⟩, ⟨4, 4, fun _ => true⟩, ⟨0, 1, fun _ => true⟩] ++
      (if s.vaultTile m then [⟨11, 1, fun _ => true⟩] else [])
    (s.rset (.vcfg n v) (fieldWrite (s.rget (.vcfg n v)) w fields)).wakeForVectors n

/-- A write of PEND_k cancels vectors (R287). -/
def State.writePend (s : State) (m : Master) (n k : Nat) (w : Word) : State :=
  let x := s.tile n
  s.setTile n { x with pend := x.pend.filter (fun v => !(decide (v / 64 = k) && w.getLsbD (v % 64) && s.reachesVector m n v)) }

/-- A write of SWSET (R287). -/
def State.writeSwset (s : State) (m : Master) (n : Nat) (w : Word) : State :=
  let v := bitsOf w 0 8
  if s.reachesVector m n v then s.raiseVector n v else s

/-! ### Keys (R307) -/

/-- KCMD. -/
def State.writeKcmd (s : State) (v : Word) : State :=
  let k := s.rfield .ksel 0 13
  if v = 1 then
    let big := (s.rget .ksuite).getLsbD 0
    let slot : KeySlot := { installed := true, aes256 := big, key := if big then s.stagedKey else s.stagedKey &&& (BitVec.allOnes 128).setWidth 256, iv := s.stagedIv, seqNo := 0 }
    { s with keys := Map.put KeySlot.reset s.keys k slot }
  else if v = 2 then { s with keys := Map.erase s.keys k }
  else s

/-- A 64-bit part of a wider staged value. -/
def setPart (w : Nat) (old : BitVec w) (k n : Nat) (v : Word) : BitVec w :=
  let m : BitVec w := BitVec.ofNat w ((2 ^ n - 1) <<< (64 * k))
  (old &&& ~~~m) ||| (BitVec.ofNat w ((v.toNat % 2 ^ n) <<< (64 * k)))

/-! ### Listeners (R326, R328) -/

/-- LCFG.EN. -/
def State.listens (s : State) (l : Nat) : Bool := (s.rget (.lcfg l)).getLsbD 16

/-- A write of LCFG_L: ignored while enabled unless it clears EN; EN needs a pool. -/
def State.writeLcfg (s : State) (l : Nat) (v : Word) : State :=
  if s.listens l && v.getLsbD 16 then s
  else
    let new := fieldWrite (s.rget (.lcfg l)) v ((RName.lcfg l).fields s.i20)
    let en := v.getLsbD 16 && (s.pool l).isSome
    s.rset (.lcfg l) (withBits new 16 1 (if en then 1 else 0))

/-! ### Writes (R10, R11) -/

/-- LK registers of the Etcher block (R233). -/
def RName.isEtchLk : RName → Bool
  | .durBase | .durSize | .jringLba | .jringBlocks | .imgLba | .spillLba | .fmtid => true
  | _ => false

/-- A W1C write: each 1 among the register's bits clears (R10). -/
def State.clearBits (s : State) (r : RName) (mask v : Word) : State := s.rset r (s.rget r &&& ~~~(v &&& mask))

/-- A write of SD_CTRL: EN cleared takes the links down (R344). -/
def State.writeSdCtrl (s : State) (v : Word) : State :=
  let s := s.rset .sdCtrl (fieldWrite (s.rget .sdCtrl) v (RName.sdCtrl.fields s.i20))
  if (s.rget .sdCtrl).getLsbD 0 then s else [Link.west, .east, .crossN, .crossS].foldl State.linkDown s

/-- A write of PART_CTL_k: STATE moves only between UNUSED and OWNED (R343). -/
def State.writePart (s : State) (k : Nat) (v : Word) : State :=
  let st := s.partState k
  let s := s.rset (.partCtl k) (fieldWrite (s.rget (.partCtl k)) v [⟨32, 16, fun _ => true⟩, ⟨0, 16, fun _ => true⟩])
  if st ≤ 1 ∧ bitsOf v 62 2 ≤ 1 then s.setPartState k (bitsOf v 62 2) else s

/-- A register write by the field rule alone (R10, R11). -/
def State.plainWrite (s : State) (r : RName) (v : Word) : State := s.rset r (fieldWrite (s.rget r) v (r.fields s.i20))

/-- A write of a register by a master, after the gate and the refusals. -/
def State.regWrite (s : State) (m : Master) (r : RName) (v : Word) : State :=
  match r with
  | .resetCause => s.clearBits r 0x1F v
  | .mbH2uDb => if !v.getLsbD 0 then s else if m = .host then s.ringH2u else s.rset .mbH2uDb 0
  | .mbU2hDb => if !v.getLsbD 0 then s else if m = .host then s.rset .mbU2hDb 0 else s.ringU2h
  | .hostIrq => s.writeHostIrq v
  | .msixTable _ => let s := s.plainWrite r v; sendPending s s.msix.pending
  | .bwStat => s.clearBits r 0xF v
  | .domctl d => let s := s.writeDomctl d v; if d = 96 ∧ s.power 96 = .off then (s.rootPortDown 0).rootPortDown 1 else s
  | .recCursor => s.writeCursor v
  | .vdbgAuth => s.writeVdbg m v
  | .calKey => s.writeCalKey m v
  | .calCmd => s.writeCalCmd m v
  | .calStaging k =>
    if s.isVs m then { s with cal := { s.cal with staging := putBytes s.cal.staging (8 * k) (leBytes 8 v.toNat) } }
    else s.calDropped m (0x4000 + 8 * k)
  | .gStart g k => s.writeRegion g k r v
  | .gEnd g k => s.writeRegion g k r v
  | .gAttr g k => s.writeAttr m g k v
  | .gateSync g => if v.getLsbD 0 then s.startSync g else s
  | .sdCtrl => s.writeSdCtrl v
  | .sdMirror => (s.plainWrite r v).chooseMirror
  | .sdCmd => if bitsOf v 0 4 = 1 then s.takeCommand else if bitsOf v 0 4 = 2 then s.hoStart else s
  | .partCtl k => s.writePart k v
  | .etchCtrl => s.writeEtchCtrl v
  | .etchStat => s.clearBits r 0x1E v
  | .etchCmd => s.etchCommand v
  | .rpCtrl n => let s := s.plainWrite r v; if (s.rget r).getLsbD 0 then s else s.rootPortDown n
  | .macCtrl n => let s := s.plainWrite r v; if s.rfield r 0 2 = 0 then s.macLink n false else s
  | .rawTail tx n => s.writeRawTail tx n v
  | .keyReg k => { s with stagedKey := setPart 256 s.stagedKey k 64 v }
  | .ivReg k => { s with stagedIv := setPart 96 s.stagedIv k (if k = 0 then 64 else 32) v }
  | .kcmd => s.writeKcmd v
  | .lcfg l => s.writeLcfg l v
  | .lip0 l => if s.listens l then s else s.plainWrite r v
  | .lip1 l => if s.listens l then s else s.plainWrite r v
  | .lrange l => if s.listens l then s else s.plainWrite r v
  | .ldef l => if s.listens l then s else s.plainWrite r v
  | .vcfg n k => s.writeVcfg m n k v
  | .pend n k => s.writePend m n k v
  | .swset n => s.writeSwset m n v
  | _ => if r.isEtchLk && s.etch.locked then s else s.plainWrite r v

/-- The other half of a register in a 32-bit write: what it holds, but zero where a 1 would act (R10, R12). -/
def State.otherHalf (s : State) (m : Master) (r : RName) : Word :=
  match r with
  | .resetCause | .mbH2uDb | .mbU2hDb | .bwStat | .etchStat | .pend _ _ => 0
  | .keyReg k => BitVec.ofNat 64 (s.stagedKey.toNat >>> (64 * k))
  | .ivReg k => BitVec.ofNat 64 (s.stagedIv.toNat >>> (64 * k))
  | _ => s.regRead m r

/-- Registers whose write acts and whose fields all lie in bits [31:0]: a write of the upper half alone writes none of them (R12). -/
def RName.actsLow : RName → Bool
  | .hostIrq | .calKey | .calCmd | .gateSync _ | .sdCmd | .etchCmd | .etchCtrl | .kcmd | .swset _ | .recCursor | .vdbgAuth | .sdCtrl
  | .domctl _ | .rpCtrl _ | .macCtrl _ => true
  | _ => false

/-- A write of one half of a register (R12). A write that its register drops from outside VS is dropped, with its event, in either half. -/
def State.halfWrite (s : State) (m : Master) (r : RName) (upper : Bool) (v : Nat) : State :=
  if upper && r.actsLow then
    (match r with
      | .calKey | .calCmd | .vdbgAuth => if s.isVs m then s else s.regWrite m r 0
      | _ => s)
  else s.regWrite m r (withBits (s.otherHalf m r) (if upper then 32 else 0) 32 v)

/-! ### Accesses (R12, R30, R33) -/

/-- A write of bytes at a target other than DRAM; a wrong width or alignment is dropped without an event (R12, log entry 41). -/
def State.devWrite (s : State) (m : Master) (a : Nat) (d : List Byte) : State :=
  match s.target a with
  | .mmio =>
    if legalWidth a d.length then
      match regAt (a / 8 * 8) with
      | some r =>
        let v : Nat := leValue d
        if d.length = 8 then s.regWrite m r (BitVec.ofNat 64 v) else s.halfWrite m r (decide (a % 8 = 4)) v
      | none => s.reservedEvent m a
    else s
  | .journal => s
  | .portState => s
  | _ => s.reservedEvent m a

/-- Register writes that were posted are performed. -/
def State.performPosted (s : State) : State := s.posted.foldl (fun s x => s.devWrite x.1 x.2.1 x.2.2) { s with posted := [] }

/-- A write by any master, with its gates and its refusals (R32, R220, R301, R366): done, or denied in part or whole. -/
def State.masterWrite (s : State) (m : Master) (a : Nat) (d : List Byte) : State × Bool :=
  let (s, ans) := s.busWrite m a d
  (s.performPosted, decide (ans = .ok))

/-- A write of a register by a command: the register's address, 64 bits. -/
def State.writeReg (s : State) (m : Master) (r : RName) (v : Word) : State := (s.masterWrite m r.addr (leBytes 8 v.toNat)).1

end Sys2Proof.Machine
end

