-- ==== Sys2Proof/Machine/Access.lean ====
section
/-! DEFINITION. The checks of an access through a capability (R48), and performing loads, stores and atomics once they have passed
(R110 to R114, R164 to R180, R193 to R200). -/

namespace Sys2Proof.Machine

/-- An exception of an instruction: its cause, DETAIL and fault address (R278). -/
structure Exc where
  cause : Nat
  detail : Nat := 0
  fa : Nat := 0
  deriving DecidableEq, Repr

/-- What an access asks for. `reg` is the register number that DETAIL gives; `need` the rights of check 3; `align` the alignment of
check 5 and of R114; `atomic` and `paint` mark R114 and R57; `line` is CPAINT.L. -/
structure Req where
  cap : Cap
  reg : Nat
  addr : Nat
  size : Nat
  want : Want
  need : List Right
  align : Nat := 1
  atomic : Bool := false
  paint : Bool := false
  line : Bool := false

/-- A granule-sized part of an access: virtual and physical address, length, page type. -/
structure Seg where
  va : Nat
  pa : Nat
  len : Nat
  ptype : PageType
  deriving DecidableEq, Repr

/-- The outcome of the checks: all passed; all but some granules of a store denied (R48, R366); an exception; an uncorrectable error
(R58, R205); a wait for a held line (R180); an abort of the thread's own plate, which has met a held line or lost a marked line (R180, R196). -/
inductive Chk where
  | ok (segs : List Seg)
  | part (allowed : List Seg) (e : Exc)
  | exc (e : Exc)
  | ue (durable : Bool) (e : Exc)
  | wait
  | abort (a : AbortInfo)
  deriving DecidableEq, Repr

/-! ### What a thread sees (R170, R176, R194) -/

/-- The thread's own stores to granule g issued before `stamp` and not yet visible, applied to x (R170). -/
def ownStores (stores : List PStore) (stamp g : Nat) (x : Granule) : Granule :=
  stores.foldl (fun x p => if p.stamp < stamp ∧ !p.device then
    p.writes.foldl (fun x w => if w.granule = g then granApply x w else x) x else x) x

/-- Granule g as thread t sees it: its plate's own write, or memory under its own earlier stores. -/
def State.viewGranule (s : State) (t : Tid) (stamp g : Nat) : Granule :=
  let th := s.thr t
  match Map.find th.plate.writes g with
  | some x => x
  | none => ownStores th.stores stamp g (s.granuleAt g)

/-- The value that a list of segments (address, length) holds for thread t, the first segment lowest (R6). -/
def State.viewSegs (s : State) (t : Tid) (stamp : Nat) : List (Nat × Nat) → Nat
  | [] => 0
  | (a, n) :: r => granBytes (s.viewGranule t stamp (a / 16)) (a % 16) n + 256 ^ n * s.viewSegs t stamp r

/-! ### The checks of R48 -/

/-- The half-accesses of R112, by virtual address; CPAINT.L has one for each granule of its line. -/
def reqParts (q : Req) : List (Nat × Nat) := if q.size ≤ 16 then splitAccess q.addr q.size else segments q.addr q.size

/-- Checks 1 to 5 of R48. -/
def checkCap (q : Req) : Option Exc :=
  let c := q.cap
  if !c.tag then some { cause := 0x03, detail := q.reg, fa := q.addr }
  else if c.seal ≠ 0 then some { cause := 0x06, detail := q.reg, fa := q.addr }
  else if !(q.need.all c.has) then some { cause := 0x05, detail := q.reg, fa := q.addr }
  else if q.addr < c.base ∨ c.top < q.addr + q.size then some { cause := 0x04, detail := q.reg, fa := q.addr }
  else if q.addr % q.align ≠ 0 then some { cause := 0x08, detail := q.reg, fa := q.addr }
  else none

/-- The translations of the parts, or the first that fails (check 6). -/
inductive Parts where
  | ok (l : List (Nat × Nat × Trans))
  | exc (e : Exc)
  | wait
  | lost

/-- Check 6 on every part, in address order; a part that fails names the access's lowest byte address (R254). -/
def translateParts (s : State) (t : Tid) (w : World) (l : Level) (q : Req) : List (Nat × Nat) → State × Parts
  | [] => (s, .ok [])
  | (a, n) :: r =>
    match s.translateAs t w l (a % vaSpace) q.want false with
    | (s, .exc c d) => (s, .exc { cause := c, detail := d, fa := q.addr })
    | (s, .wait) => (s, .wait)
    | (s, .lost) => (s, .lost)
    | (s, .ok x) =>
      match translateParts s t w l q r with
      | (s, .ok m) => (s, .ok ((a, n, x) :: m))
      | x => x

/-- Check 7 on one page: DEV for a Device page, which CPAINT never passes, and VAULT for a Vault page (R48, R57). -/
def pageRightMissing (q : Req) (x : Trans) : Bool :=
  (decide (x.ptype = .device) && (q.paint || !q.cap.has .dev)) || (decide (x.world = .vault) && !q.cap.has .vault)

/-- Checks 7 to 9 on the translated parts. -/
def checkPages (q : Req) (inPlate : Bool) (l : List (Nat × Nat × Trans)) : Option Exc :=
  let device := l.any (fun x => decide (x.2.2.ptype = .device))
  let durable := l.any (fun x => decide (x.2.2.ptype = .durable))
  if device && inPlate then some { cause := 0x1A }
  else if l.any (fun x => pageRightMissing q x.2.2) then
    some { cause := 0x05, detail := q.reg, fa := q.addr }
  else if device && (q.atomic || decide (l.length > 1)) then some { cause := 0x08, detail := q.reg, fa := q.addr }
  else if q.want.wr && durable && !inPlate then
    some { cause := 0x0D, fa := q.addr }
  else none

/-- The line holding a granule is in error for an access of thread t: only a load of a line that its own plate has repainted passes (R58). -/
def State.ueFor (s : State) (t : Tid) (q : Want) (line : Nat) : Bool :=
  s.inError line && !(q.rd && !q.wr && !q.ex && (s.plate t).cleared.contains line)

/-- The colour that an access of thread t compares: a fetch sees no store or painting of its own that others do not see (R117, R183). -/
def State.colourFor (s : State) (t : Tid) (stamp : Nat) (fetch : Bool) (g : Nat) : BitVec 4 :=
  if fetch then (s.granuleAt g).colour else (s.viewGranule t stamp g).colour

/-- Check 10 on one part: the granule's colour as thread t sees it (R53, R54, R58). Only a Normal or Durable page in DRAM compares. -/
def checkColour (s : State) (t : Tid) (stamp : Nat) (q : Req) (x : Seg) : Option Exc :=
  if q.paint ∨ x.ptype = .device ∨ !s.isDram x.pa ∨ s.ueFor t q.want (x.pa / 64) then none
  else
    let g := s.colourFor t stamp q.want.ex (x.pa / 16)
    if q.cap.colour = g ∨ g = 15 then none
    else some { cause := 0x07, detail := q.cap.colour.toNat * 16 + g.toNat, fa := q.addr }

/-- Check 10 on every part. -/
def checkColours (s : State) (t : Tid) (stamp : Nat) (q : Req) : List Seg → Option Exc
  | [] => none
  | x :: r =>
    match checkColour s t stamp q x with
    | some e => some e
    | none => checkColours s t stamp q r

/-- The colours that an access carries to a gate: those of a Device page that maps DRAM, unless its line is in error (R54, R58). -/
def gateColours (s : State) (t : Tid) (q : Req) (x : Seg) : Option (BitVec 4 × BitVec 4) :=
  if decide (x.ptype = .device) && s.isDram x.pa && !s.ueFor t q.want (x.pa / 64) then some (q.cap.colour, (s.granuleAt (x.pa / 16)).colour) else none

/-- Check 11: each granule's gate, where a fetch counts as a read (R363), and the refusals of its target, then media integrity. Answers the
allowed granules, the first denial, which names the first byte of the access in the first denied granule (R278, R366), and the first uncorrectable
error. -/
def checkGates (s : State) (t : Tid) (q : Req) : List Seg → State × List Seg × Option Exc × Option (Bool × Exc)
  | [] => (s, [], none, none)
  | x :: r =>
    match s.verdict (.tile t) x.pa (q.want.rd || q.want.ex) q.want.wr (gateColours s t q x) with
    | (s, .denied colour) =>
      let e : Exc :=
        if colour then { cause := 0x07, detail := q.cap.colour.toNat * 16 + (s.granuleAt (x.pa / 16)).colour.toNat, fa := q.addr }
        else { cause := 0x17, detail := (s.gateOf x.pa).getD 0, fa := x.va }
      let (s, l, _, u) := checkGates s t q r
      (s, l, some e, u)
    | (s, .refused g) =>
      let (s, l, _, u) := checkGates s t q r
      (s, l, some { cause := 0x17, detail := g, fa := x.va }, u)
    | (s, .pass) =>
      let line := x.pa / 64
      if s.isDram x.pa && s.ueFor t q.want line && !(q.line && decide (x.ptype = .normal)) then
        let s := s.foundErrorAs (.tile t) line (decide (x.ptype = .device))
        let (s, l, d, _) := checkGates s t q r
        (s, l, d, some (s.isDurable x.pa, { cause := 0x18, fa := q.addr }))
      else
        let (s, l, d, u) := checkGates (s.mediaRead line) t q r
        (s, x :: l, d, u)

/-- The checks of R48 in order for thread t, as if it ran in world w at level l; `inPlate` and `stamp` say what it sees. -/
def State.checkAs (s : State) (t : Tid) (w : World) (l : Level) (inPlate : Bool) (stamp : Nat) (q : Req) : State × Chk :=
  match checkCap q with
  | some e => (s, .exc e)
  | none =>
    match translateParts s t w l q (reqParts q) with
    | (s, .exc e) => (s, .exc e)
    | (s, .wait) => (s, .wait)
    | (s, .lost) => (s, .abort .evicted)
    | (s, .ok parts) =>
      match checkPages q inPlate parts with
      | some e => (s, .exc e)
      | none =>
        let segs := parts.map (fun x => { va := x.1, pa := x.2.2.pa, len := x.2.1, ptype := x.2.2.ptype : Seg })
        if segs.any (fun x => s.heldByOther (some t) (x.pa / 64)) then (s, if inPlate then .abort .conflict else .wait)
        else
          match checkColours s t stamp q segs with
          | some e => (s, .exc e)
          | none =>
            match checkGates s t q segs with
            | (s, _, _, some (d, e)) => (s, .ue d e)
            | (s, l, some e, none) => (s, if q.want.wr ∧ !q.want.rd then .part l e else .exc e)
            | (s, l, none, none) => (s, .ok l)

/-- The checks for thread t as it runs. -/
def State.check (s : State) (t : Tid) (q : Req) : State × Chk :=
  let th := s.thr t
  s.checkAs t th.world th.level (decide (th.plate.pdepth ≠ 0)) s.fresh q

/-! ### Requests -/

/-- A data load, or a capability load with its alignment (R110). -/
def loadReq (c : Cap) (reg : Reg) (a n : Nat) (align : Nat) : Req :=
  { cap := c, reg := reg.toNat, addr := a, size := n, want := ⟨true, false, false⟩, need := [.ld], align := align }

/-- The rights that storing a value as a capability needs (R42, R111). -/
def capStoreRights (v : Cap) : List Right :=
  if v.tag then (if v.has .gl then [.stc] else [.stc, .stl]) else []

/-- A data store, or a capability store (R111). -/
def storeReq (c : Cap) (reg : Reg) (a n : Nat) (align : Nat) (extra : List Right) : Req :=
  { cap := c, reg := reg.toNat, addr := a, size := n, want := ⟨false, true, false⟩, need := .st :: extra, align := align }

/-- An atomic (R114). -/
def atomicReq (c : Cap) (reg : Reg) (n : Nat) (extra : List Right) : Req :=
  { cap := c, reg := reg.toNat, addr := c.cursor, size := n, want := ⟨true, true, false⟩, need := [.ld, .st] ++ extra, align := n,
    atomic := true }

/-- A fetch through PCC (R48, R83). -/
def fetchReq (pcc : Cap) : Req :=
  { cap := pcc, reg := 32, addr := pcc.cursor, size := 4, want := ⟨false, false, true⟩, need := [.ex] }

/-- CPAINT and CPAINT.L (R57). -/
def paintReq (c : Cap) (reg : Reg) (size : Nat) : Req :=
  { cap := c, reg := reg.toNat, addr := c.cursor, size := size, want := ⟨false, true, false⟩, need := [.st, .clr], align := size,
    paint := true, line := decide (size = 64) }

/-! ### Performing accesses -/

/-- How performing an access ends: done, an abort of the thread's own plate (R195, R196), or done with a value. -/
inductive Perf (α : Type) where
  | ok (s : State) (v : α)
  | abort (s : State) (a : AbortInfo)

/-- Adds lines to the plate's read set; the 1,025th line aborts the plate (R196). -/
def addReads (reads : List Nat) : List Nat → Option (List Nat)
  | [] => some reads
  | l :: r =>
    if reads.contains l then addReads reads r
    else if reads.length ≥ 1024 then none else addReads (reads ++ [l]) r

/-- The lines that a plate loads from join its read set (R193, R196), when the load issues; a line of a partition on the move aborts it (R210). -/
def State.joinReads (s : State) (t : Tid) (lines : List Nat) : Perf Unit :=
  if lines.any s.movingLine then .abort s .migrated
  else
    match addReads (s.plate t).reads lines with
    | none => .abort s { cause := 4 }
    | some l =>
      match touchLines s t lines with
      | (s, true) => .abort s .evicted
      | (s, false) => .ok (s.modThr t (fun th => { th with plate := { th.plate with reads := l } })) ()

/-- Performs a load of DRAM segments: the plate's read set, or the conflicts of a non-transactional load (R180, R193). -/
def State.loadDram (s : State) (t : Tid) (stamp : Nat) (segs : List (Nat × Nat)) : Perf Nat :=
  let lines := segs.map (fun x => x.1 / 64)
  if (s.plate t).pdepth = 0 then
    let s' := (touchLines s t lines).1
    .ok (segs.foldl (fun s x => s.conflict (some t) (x.1 / 64) false) s') (s.viewSegs t stamp segs)
  else
    match s.joinReads t lines with
    | .ok s _ => .ok s (s.viewSegs t stamp segs)
    | .abort s a => .abort s a

/-- Performs a load through a Device page: a register, an SRAM, a reserved address, or DRAM (R30, R174). Of the targets other than DRAM only the
receive cursors of R298 lie in a plate's footprint, and they meet it as any granule does (R180, R194). -/
def State.loadDevice (s : State) (t : Tid) : List (Nat × Nat) → State × Nat
  | [] => (s, 0)
  | (a, n) :: r =>
    let s := s.conflict (some t) (a / 64) false
    let (s, v) := if s.isDram a then (s, granBytes (s.viewGranule t s.fresh (a / 16)) (a % 16) n) else s.devRead (.tile t) a n
    let (s, w) := s.loadDevice t r
    (s, v + 256 ^ n * w)

/-- Takes plate-buffer entries for writes of one plate (R194, R195), or the SHARED bit of its abort. -/
def plateWrites (s : State) (t : Tid) : List GWrite → Except Bool State
  | [] => .ok s
  | w :: r =>
    let p := s.plate t
    let g := w.granule
    let fresh := (Map.find p.writes g).isNone
    if fresh ∧ s.bufferUsed (tileOf t) ≥ 256 then .error (decide (p.writes.length + p.consumed.length < 256))
    else
      let x := granApply (s.viewGranule t s.fresh g) w
      plateWrites (s.modThr t (fun th => { th with plate := { th.plate with writes := Map.set th.plate.writes g x } })) t r

/-- Performs granule events in DRAM at once, with the conflicts of a non-transactional store (R180). The two events of a crossing access come in one
step: DESIGN CHOICE, so no mix of old and new halves is seen (R112, R168, log entry 41). -/
def State.storeVisible (s : State) (t : Tid) : List GWrite → State
  | [] => s
  | w :: r => ((s.conflict (some t) (lineOf w.granule) true).applyWrite w).storeVisible t r

/-- A store of DRAM granules: into the plate, or into the thread's stores that are not yet visible (R170, R194). -/
def State.storeDram (s : State) (t : Tid) (ws : List GWrite) : Perf Unit :=
  let lines := ws.map (fun w => lineOf w.granule)
  if (s.plate t).pdepth = 0 then
    let s := (touchLines s t lines).1
    .ok (s.modThr t (fun th => { th with stores := th.stores ++ [{ stamp := s.fresh, writes := ws, device := false }] })) ()
  else if lines.any s.movingLine then .abort s .migrated
  else
    match plateWrites s t ws with
    | .ok s =>
      (match touchLines s t lines with
        | (s, true) => .abort s .evicted
        | (s, false) => .ok s ())
    | .error sh => .abort s { cause := 3, shared := sh, retry := sh }

/-- The lines that a store repaints whole (R58). -/
def paintedLines (ws : List GWrite) : List Nat :=
  match ws with
  | .paint g _ :: _ :: _ :: _ :: [] => [lineOf g]
  | _ => []

/-- A store becomes visible to everyone; a CPAINT.L takes its line out of error (R58, R170). -/
def State.completeStore (s : State) (t : Tid) (ws : List GWrite) : State :=
  let s := s.storeVisible t ws
  { s with ue := s.ue.filter (fun x => !(paintedLines ws).contains x.1) }

/-- The granules that become visible with granule g: all four of its line where a CPAINT.L of the line is pending, a single event (R56). -/
def flushSet (stores : List PStore) (g : Nat) : List Nat :=
  if stores.any (fun p => (paintedLines p.writes).contains (lineOf g)) then (List.range 4).map (fun k => 4 * lineOf g + k) else [g]

/-- The thread's own earlier stores to granule g become visible, ahead of a later access that is performed at once (R168). -/
def State.flushGranule (s : State) (t : Tid) (stamp g : Nat) : State :=
  let mine (p : PStore) : Bool := decide (p.stamp < stamp) && !p.device
  let gs := flushSet ((s.thr t).stores.filter mine) g
  let ps := ((s.thr t).stores.filter mine).filter (fun p => p.writes.any (fun w => gs.contains w.granule))
  if ps.isEmpty then s
  else
    let s := ps.foldl (fun s p => s.completeStore t (p.writes.filter (fun w => gs.contains w.granule))) s
    s.modThr t (fun th => { th with stores := th.stores.map (fun p =>
      if mine p then { p with writes := p.writes.filter (fun w => !gs.contains w.granule) } else p) })

/-- A store to a target other than Normal or Durable memory: performed at once, answered later (R173, R174). -/
def State.storeDevice (s : State) (t : Tid) (ws : List (Nat × List Byte)) (c : Option Cap) : State :=
  let s := ws.foldl (fun s x =>
    if s.isDram x.1 then
      let s := s.flushGranule t s.fresh (x.1 / 16)
      (match c with
        | some v => s.storeVisible t [.cap (x.1 / 16) v]
        | none => s.storeVisible t [.bytes x.1 x.2])
    else s.devWrite (.tile t) x.1 x.2) s
  s.modThr t (fun th => { th with stores := th.stores ++ [{ stamp := s.fresh, writes := [], device := true }] })

/-- The granule events of storing bytes over checked segments. -/
def segWrites : List Seg → List Byte → Nat → List GWrite
  | [], _, _ => []
  | x :: r, d, base => .bytes x.pa ((d.drop (x.va - base)).take x.len) :: segWrites r d base

/-- Whether every segment lies in DRAM under a cached page. -/
def allCached (s : State) (segs : List Seg) : Bool := segs.all (fun x => decide (x.ptype ≠ .device) && s.isDram x.pa)

/-- The ALU of the atomics, on values of n bytes (R114). -/
def atomicAlu (op : AtomOp) (n old v : Nat) : Nat :=
  let m := 256 ^ n
  let sg (x : Nat) : Int := if x ≥ m / 2 then (x : Int) - m else x
  match op with
  | .swap => v % m
  | .add => (old + v) % m
  | .and => (old &&& v) % m
  | .or => (old ||| v) % m
  | .xor => (old ^^^ v) % m
  | .max => if sg old < sg (v % m) then v % m else old
  | .min => if sg (v % m) < sg old then v % m else old
  | .maxu => if old < v % m then v % m else old
  | .minu => if v % m < old then v % m else old
  | .cas => v % m

/-- The size in bytes of an atomic's SIZE field (R114). -/
def atomicBytes (size : Nat) : Nat := if size = 0 then 4 else if size = 1 then 8 else 16

/-- The register result of an atomic from the old granule (R114). -/
def atomicResult (size : Nat) (x : Granule) (off : Nat) : Cap :=
  let v := granBytes x off (atomicBytes size)
  match size with
  | 0 => Cap.ofWord ((BitVec.ofNat 32 v).signExtend 64)
  | 1 => Cap.ofWord (BitVec.ofNat 64 v)
  | 2 => Cap.ofQuad (BitVec.ofNat 128 v)
  | _ => ⟨BitVec.ofNat 128 v, x.tag⟩

/-- The granule event of an atomic on the granule it finds (R55, R114): an integer CAS that compares unequal still clears the tag. -/
def atomicWrite (op : AtomOp) (size a : Nat) (operand expected : Cap) (x : Granule) : Option GWrite :=
  let n := atomicBytes size
  let old := granBytes x (a % 16) n
  if size = 3 then
    if op = .cas ∧ !(decide (expected = granCap x)) then none else some (.cap (a / 16) operand)
  else if op = .cas ∧ old ≠ expected.bits.toNat % 256 ^ n then some (.bytes a (leBytes n old))
  else some (.bytes a (leBytes n (atomicAlu op n old operand.bits.toNat)))

/-- Performs an atomic on DRAM: one granule event (R114, R168); inside a plate it enters both sets (R193). -/
def State.doAtomic (s : State) (t : Tid) (stamp : Nat) (op : AtomOp) (size a : Nat) (operand expected : Cap) : Perf Cap :=
  let x := s.viewGranule t stamp (a / 16)
  let w := atomicWrite op size a operand expected x
  let res := atomicResult size x (a % 16)
  if (s.plate t).pdepth = 0 then
    let s := (((touchLines s t [a / 64]).1).flushGranule t stamp (a / 16)).conflict (some t) (a / 64) true
    .ok (match w with
      | some w => s.applyWrite w
      | none => s) res
  else
    match s.joinReads t [a / 64] with
    | .abort s i => .abort s i
    | .ok s _ =>
      match plateWrites s t [w.getD (.cap (a / 16) (granCap x))] with
      | .ok s => .ok s res
      | .error sh => .abort s { cause := 3, shared := sh, retry := sh }

/-- What an outstanding access of a plate takes when it issues: its lines in the read set, and for an atomic the buffer entry of its granule, which
holds the granule as it is until the access is performed (R193 to R196). -/
def State.joinOut (s : State) (t : Tid) (k : OutKind) : Perf Unit :=
  if (s.plate t).pdepth = 0 then .ok s ()
  else
    match k with
    | .load segs _ _ _ => s.joinReads t (segs.map (fun x => x.1 / 64))
    | .atomic _ _ a _ _ _ _ =>
      (match s.joinReads t [a / 64] with
        | .abort s i => .abort s i
        | .ok s _ =>
          match plateWrites s t [.cap (a / 16) (granCap (s.viewGranule t s.fresh (a / 16)))] with
          | .ok s => .ok s ()
          | .error sh => .abort s { cause := 3, shared := sh, retry := sh })
    | _ => .ok s ()

/-- A load's result from its raw value (R110): sign or zero extension, or all 128 bits with a tag. -/
def loadResult (n : Nat) (signed asCap : Bool) (v : Nat) (tag : Bool) : Cap :=
  if n = 16 then ⟨BitVec.ofNat 128 v, asCap && tag⟩
  else if signed ∧ v ≥ 256 ^ n / 2 then Cap.ofWord (BitVec.ofInt 64 ((v : Int) - (256 ^ n : Nat)))
  else Cap.ofWord (BitVec.ofNat 64 v)

end Sys2Proof.Machine
end

