-- ==== Sys2Proof/Machine/Exception.lean ====
section
/-! DEFINITION. Taking an exception or an interrupt: the frame, the entry, a thread that is lost, and an exception inside a plate
(R206, R275 to R281). -/

namespace Sys2Proof.Machine

/-- The status granule (R276). -/
def statusGranule (w : World) (l : Level) (ipl : BitVec 4) : Cap :=
  { bits := withField (BitVec.ofNat 128 (ipl.toNat * 16 + (if w = .vault then 4 else 0) + (if l = .supervisor then 1 else 0))) 116 12 0xFFF,
    tag := true }

/-- The cause word of an exception (R277). -/
def causeWord (e : Exc) : Word := BitVec.ofNat 64 (e.detail * 256 + e.cause)

/-- The cause word of an interrupt (R277). -/
def vectorWord (v : Nat) : Word := BitVec.ofNat 64 (v * 2 ^ 24 + 2 ^ 16)

/-- An EMPTY thread (R65, R120, R274); what belongs to the hardware thread rather than its run stays: PSTAT 1 and 2 (R213), the BRK
claim (R412) and stores that are not yet visible (R170). -/
def Thread.emptied (th : Thread) : Thread :=
  { Thread.reset with plate := { Plate.reset with abortPc := th.plate.abortPc, lastCsn := th.plate.lastCsn }, brkClaim := th.brkClaim,
                      stores := th.stores, sinceTick := th.sinceTick }

/-- thread_lost of R281. -/
def State.threadLost (s : State) (t : Tid) (cw fa : Word) : State :=
  let s := endClaims (s.modThr t Thread.emptied) t
  s.event 0x0105 1 t.toNat [(2, t.toNat), (8, cw.toNat), (8, fa.toNat)]

/-- One frame granule's check: a capability store through c, outside any plate (R280), after every store that the thread has issued. -/
def pushCheck (s : State) (t : Tid) (w : World) (l : Level) (c : Cap) (f : Nat) : Nat → List Cap → State × Chk
  | _, [] => (s, .ok [])
  | k, v :: r =>
    match s.checkAs t w l false (s.fresh + 1) (storeReq c 31 ((f + 16 * k) % vaSpace) 16 16 (capStoreRights v)) with
    | (s, .ok a) =>
      match pushCheck s t w l c f (k + 1) r with
      | (s, .ok b) => (s, .ok (a ++ b))
      | x => x
    | (s, .wait) => (s, .wait)
    | (s, _) => (s, .exc { cause := 0 })

/-- Where the frame goes: the granules of a stack that takes it, no stack, or a wait for a held line (R280, R281). -/
inductive Push where
  | at (segs : List Seg) (c : Cap) (spill : Bool)
  | none
  | wait

/-- can_push on g31, then on ESTK (R280). -/
def choosePush (s : State) (t : Tid) (frame : Bool → List Cap) : State × Push :=
  let th := s.thr t
  let g31 := th.reg 31
  let g31 := if th.parity.contains 31 then g31.untag else g31
  let f (c : Cap) : Nat := c.ea (-128)
  match pushCheck s t th.world th.level g31 (f g31) 0 (frame false) with
  | (s, .ok segs) => (s, .at segs g31 false)
  | (s, .wait) => (s, .wait)
  | (s, _) =>
    let e := th.estk th.world
    match pushCheck s t th.world .supervisor e (f e) 0 (frame true) with
    | (s, .ok segs) => (s, .at segs e true)
    | (s, .wait) => (s, .wait)
    | (s, _) => (s, .none)

/-- A saved register: its tag is cleared where it had a parity error (R280). -/
def savedReg (th : Thread) (r : Reg) : Cap := if th.parity.contains r.toNat then (th.reg r).untag else th.reg r

/-- The checks of R97 on a capability that PCC is to hold. -/
def jumpCheck (c : Cap) (reg : Nat) : Option Exc :=
  if !c.tag then some { cause := 0x03, detail := reg, fa := c.cursor }
  else if c.seal ≠ 0 then some { cause := 0x06, detail := reg, fa := c.cursor }
  else if !c.has .ex then some { cause := 0x05, detail := reg, fa := c.cursor }
  else if c.cursor % 4 ≠ 0 then some { cause := 0x08, detail := reg, fa := c.cursor }
  else none

/-- Parity errors that entry finds in the registers it saves: one event each (R64, R280). -/
def parityEvents (s : State) (t : Tid) : List Nat → State
  | [] => s
  | r :: l =>
    let s := if (s.thr t).parity.contains r then s.event 0x0304 1 t.toNat [(2, t.toNat), (1, r)] else s
    parityEvents s t l

/-- The registers after entry (R280); the new PCC has good parity. -/
def Thread.entered (th : Thread) (c : Cap) (spill : Bool) (cw fa : Word) (prio : Option (BitVec 4)) : Thread :=
  let f := c.ea (-128)
  let sup := decide (th.level = .supervisor) || spill
  let g31 := if sup then c.setCursor f else th.stk th.world
  let g1 := ((c.narrowTo f 128).setRights 0x5B)
  let th := (((th.setReg 31 g31).setReg 1 g1).wrInt 2 cw).wrInt 3 fa
  { th with parity := th.parity.filter (fun p => decide (p ≠ 32)), level := .supervisor, pkeys := 0, ipl := prio.getD th.ipl,
            excnt := if prio.isSome then th.excnt else th.excnt + 1, intcnt := if prio.isSome then th.intcnt + 1 else th.intcnt,
            pcc := th.evec th.world, entry := none, resume := false }

/-- enter of R280: the frame, or the wait for a held line, or the loss of the thread. -/
def State.enter (s : State) (t : Tid) (e : PEntry) : State :=
  let th := s.thr t
  let parity := [31, 1, 2, 3].any th.parity.contains
  let cw := if parity then e.cause ||| (1 : Word) <<< 18 else e.cause
  let word (spill : Bool) : Word := if spill then cw ||| (1 : Word) <<< 17 else cw
  let frame (spill : Bool) : List Cap :=
    [statusGranule th.world th.level th.ipl, th.pcc, Cap.ofQuad ((((e.fa.setWidth 54).setWidth 128) <<< 64) ||| (word spill).setWidth 128),
     Cap.ofQuad th.pkeys, savedReg th 31, savedReg th 1, savedReg th 2, savedReg th 3]
  match choosePush s t frame with
  | (s, .wait) => s.modThr t (fun th => { th with st := .waiting .entry, entry := some e })
  | (s, .none) => (parityEvents s t [31, 1, 2, 3]).threadLost t (word true) e.fa
  | (s, .at segs c spill) =>
    let s := parityEvents s t [31, 1, 2, 3]
    let s := (segs.zip (frame spill)).foldl (fun s x =>
      if s.isDram x.1.pa then ((touchLines s t [x.1.pa / 64]).1.flushGranule t (s.fresh + 1) (x.1.pa / 16)).storeVisible t [.cap (x.1.pa / 16) x.2]
      else s.devWrite (.tile t) x.1.pa (leBytes 16 x.2.bits.toNat)) s
    let s := s.modThr t (fun th => th.entered c spill (word spill) e.fa e.prio)
    let th := s.thr t
    match jumpCheck th.pcc 0 with
    | some _ => s.threadLost t (word spill) e.fa
    | none =>
      let stop := th.stepping || th.stopReq
      (s.modThr t (fun th => { th with st := if stop then .stopped else .ready, stepping := false, stopReq := false })).wakeGated (tileOf t)

/-- Entry begins once every outstanding result of the thread is written (R74). -/
def State.beginEntry (s : State) (t : Tid) (e : PEntry) : State :=
  if (s.thr t).outs = [] then s.enter t e
  else s.modThr t (fun th => { th with st := .waiting .entry, entry := some e })

/-- An exception of thread t's instruction: a plate aborts with FAULT first (R205, R206), then entry. -/
def State.raise (s : State) (t : Tid) (e : Exc) : State :=
  let s := s.abortPlate t { cause := 7, code := e.cause }
  s.beginEntry t { cause := causeWord e, fa := BitVec.ofNat 64 e.fa, prio := none }

/-- MEM_UE: inside a plate the plate aborts with cause 11, and for a Durable line nothing else is delivered (R205). -/
def State.raiseUe (s : State) (t : Tid) (durable : Bool) (e : Exc) : State :=
  if (s.plate t).abortable then
    let s := s.abortPlate t { cause := 11, code := 0x18, retry := durable }
    if durable then s else s.beginEntry t { cause := causeWord e, fa := BitVec.ofNat 64 e.fa, prio := none }
  else s.beginEntry t { cause := causeWord e, fa := BitVec.ofNat 64 e.fa, prio := none }

/-- A register parity error found by a read: event 0x0304, then MEM_UE with DETAIL 1 and fault address 0 (R64). -/
def State.raiseParity (s : State) (t : Tid) (reg : Nat) : State :=
  (s.event 0x0304 1 t.toNat [(2, t.toNat), (1, reg)]).raiseUe t false { cause := 0x18, detail := 1 }

end Sys2Proof.Machine
end

