-- ==== Sys2Proof/Machine/HostOps.lean ====
section
/-! DEFINITION. Accesses of HOST and DEBUG to physical addresses, with their answers (R366, R411, R431, R432), and what goes on once held
lines have been published (R180, R280). -/

namespace Sys2Proof.Machine

/-! ### HOST and DEBUG accesses -/

/-- The master of a waiting access. -/
def BusWait.master (w : BusWait) : Master := if w.host then .host else .debug

/-- The debug module's status and captured value (R411). -/
def State.dbgAnswer (s : State) (status : Nat) (v : Word) : State := { s with dbg := { s.dbg with everXfer := true, status := status, data := v } }

/-- The answer to a read: a completion or Completer Abort for HOST, STATUS and DATA for DEBUG (R366, R411). -/
def State.answerRead (s : State) (w : BusWait) (d : Option (List Byte)) : State :=
  if w.host then { s with out := s.out ++ [Output.hostCompletion d] }
  else s.dbgAnswer (if d.isSome then 0 else 2) (BitVec.ofNat 64 (leValue (d.getD [])))

/-- The answer to a write: HOST writes are posted, and a failed one is logged under AER (R366). -/
def State.answerWrite (s : State) (w : BusWait) (ok : Bool) : State :=
  if w.host then (if ok then s else { s with out := s.out ++ [Output.completerAbort] })
  else s.dbgAnswer (if ok then 0 else 2) 0

/-- Performs an access at memory, a register or an SRAM; none while a line of it is held (R180). -/
def State.tryBus (s : State) (w : BusWait) : Option State :=
  match w.data with
  | none =>
    (match s.busRead w.master w.addr w.len with
      | (_, .wait, _) => none
      | (s, .ok, d) => some (s.answerRead w (some d))
      | (s, .error, _) => some (s.answerRead w none))
  | some d =>
    (match s.busWrite w.master w.addr d with
      | (_, .wait) => none
      | (s, .ok) => some (s.performPosted.answerWrite w true)
      | (s, .error) => some (s.performPosted.answerWrite w false))

/-- Waiting accesses in order: a waiting posted write holds back every later HOST access (R432). -/
def runWaits (s : State) (blocked : Bool) : List BusWait → State × List BusWait
  | [] => (s, [])
  | w :: r =>
    if w.host && blocked then let (s, l) := runWaits s blocked r; (s, w :: l)
    else
      match s.tryBus w with
      | some s => runWaits s blocked r
      | none => let (s, l) := runWaits s (blocked || (w.host && w.data.isSome)) r; (s, w :: l)

/-- Performs the waiting accesses that can be performed now. -/
def State.runBus (s : State) : State :=
  if s.busWaits.isEmpty then s
  else
    let (s', l) := runWaits { s with busWaits := [] } false s.busWaits
    { s' with busWaits := l }

/-- A new access of HOST or DEBUG. -/
def State.busRequest (s : State) (w : BusWait) : State :=
  if w.host && s.busWaits.any (fun x => x.host && x.data.isSome) then { s with busWaits := s.busWaits ++ [w] }
  else
    match s.tryBus w with
    | some s => s
    | none =>
      let s := { s with busWaits := s.busWaits ++ [w] }
      if w.host then s else s.dbgAnswer 1 0

/-! ### After a publishing -/

/-- Entries that waited for a held frame line are tried again (R280). -/
def State.retryEntries (s : State) : State :=
  s.threadList.foldl (fun s n =>
    let t : Tid := BitVec.ofNat 9 n
    let th := s.thr t
    match th.entry with
    | some e => if th.st = .waiting .entry ∧ th.outs = [] then s.enter t e else s
    | none => s) s

/-- What waited for a held line goes on: entries, HOST and DEBUG accesses, PORTDMA transfers. -/
def State.resumeHeld (s : State) : State := s.retryEntries.runBus.kickRaw

/-- What follows a command that may publish plates, write registers or move durability on. Register writes of the unit's engines are performed with the
command that makes them: DESIGN CHOICE (log entry 43). -/
def State.after (s : State) : State := s.performPosted.resumeHeld.progress.performPosted.resumeHeld.releaseSends

/-! ### Commands and the clocks they need -/

/-- The unit is out of cold reset (R417). -/
def State.powered (s : State) : Bool := !s.boot.porst

/-- The engines of the port die and of the compute die are clocked: the unit is out of cold reset, and THERMTRIP has not stopped them (R390). -/
def State.clocked (s : State) : Bool := !s.boot.porst && !s.thermTrip

/-- A command that acts while the unit is out of cold reset. -/
def onPowered (f : State → State) (s : State) : Result State := .next (if s.powered then f s else s)

/-- A command of an engine, which acts while the engines are clocked. -/
def onClocked (f : State → State) (s : State) : Result State := .next (if s.clocked then f s else s)

/-- What arrives over the chain: nothing does once the bridge has failed and the links are down (R23). -/
def onChain (f : State → State) (s : State) : Result State := onClocked (fun s => if s.halted then s else f s) s

/-- A write of a register by a master, and what follows it. -/
def writeCommand (m : Master) (r : RName) (v : Word) (s : State) : Result State := onPowered (fun s => (s.writeReg m r v).after) s

end Sys2Proof.Machine
end

