-- ==== Sys2Proof/Machine/Issue.lean ====
section
/-! DEFINITION. How an instruction of a thread issues: READY, fetch, ILLEGAL_OP, supervisor checks, parking, operands; and how it ends
(R16, R41, R64 to R74, R83, R92, R116). -/

namespace Sys2Proof.Machine

/-- What an instruction's word asks for before it executes. `vaultOnly` is a register that
only VS reaches (R271); `divider` and `moneyDivider` name the units it needs; `mctl` is a CRR or CRW of
MCTL (R93). -/
structure Pre where
  illegal : Bool := false
  supervisor : Bool := false
  vaultOnly : Bool := false
  srcs : List Reg := []
  dests : List Reg := []
  divider : Bool := false
  moneyDivider : Bool := false
  mctl : Bool := false

/-- How an instruction ends: completed with PCC moved past it, completed with PCC set, an iteration done with PCC kept, an exception, an
uncorrectable error, an abort of its plate, a wait; or not issued yet, PARKED for memory or for results, without a count (R69, R181). -/
inductive Act where
  | done (s : State)
  | jump (s : State)
  | again (s : State)
  | raise (s : State) (e : Exc)
  | ue (s : State) (durable : Bool) (e : Exc)
  | abort (s : State) (a : AbortInfo)
  | wait (s : State) (w : WaitWhy)
  | hold (s : State) (w : ParkWhy)

/-- Outcomes of admitting an instruction: the thread does not issue; it parks, waits or raises; it executes. -/
inductive Admit where
  | idle
  | stopped (s : State)
  | go (s : State)

/-- Outstanding results that hold every later instruction: a trap-enabled money operation, an AQ atomic (R73, R133, R175). -/
def holdsIssue (o : Out) : Bool :=
  match o.kind with
  | .atomic _ _ _ _ _ aq _ => aq
  | _ => o.te

/-- Stamps of the outstanding results that the instruction must wait for (R67, R93). -/
def parkStamps (th : Thread) (p : Pre) : List Nat :=
  (th.outs.filter (fun o =>
    (decide (o.rd ≠ 0) && (p.srcs.contains o.rd || (o.kind.isLong && p.dests.contains o.rd))) || (p.mctl && o.kind.isMoney))).map (·.stamp)

def State.park (s : State) (t : Tid) (w : ParkWhy) : State := s.modThr t (fun th => { th with st := .parked w })

/-- The counters of an issue (R66, R87) and the model's own counter (log entry 4). -/
def State.countIssue (s : State) (t : Tid) : State :=
  let s := s.modThr t (fun th => { th with issued := th.issued + 1, sinceTick := th.sinceTick + 1, resume := false })
  let s := s.setTile (tileOf t) { s.tile (tileOf t) with lastIssued := t.toNat % 8 }
  { s with fresh := s.fresh + 1 }

/-- Steps after the fetch: ILLEGAL_OP, PRIV, SYS, parking, parity of the operands (R64, R67, R83). -/
def admitFetched (s : State) (t : Tid) (p : Pre) : Admit :=
  let th := s.thr t
  if p.illegal then .stopped ((s.countIssue t).raise t { cause := 0x01 })
  else if (p.supervisor && decide (th.level = .user)) || (p.vaultOnly && decide (th.world = .main)) then .stopped ((s.countIssue t).raise t { cause := 0x02 })
  else if p.supervisor && !th.pcc.has .sys then
    .stopped ((s.countIssue t).raise t { cause := 0x05, detail := 32, fa := th.pcc.cursor })
  else
    let wait := parkStamps th p
    let tile := s.tile (tileOf t)
    if !wait.isEmpty then .stopped (s.park t (.result wait))
    else if p.divider && tile.divBusy then .stopped (s.park t .divider)
    else if p.moneyDivider && tile.mdivBusy then .stopped (s.park t .moneyDivider)
    else
      match p.srcs.find? (fun r => decide (r ≠ 0) && th.parity.contains r.toNat) with
      | some r => .stopped ((s.countIssue t).raiseParity t r.toNat)
      | none => .go (s.countIssue t)

/-- The instruction of a checked fetch is in the L1 instruction cache for thread t (R67, R116); the line that it misses otherwise. -/
def State.missesFetch (s : State) (t : Tid) : List Seg → Option Nat
  | [] => none
  | x :: _ =>
    let line := x.pa / 64
    if (Map.find (s.tile (tileOf t)).l1i line).isSome && !(s.thr t).refetch.contains line then none else some line

/-- Admitting an instruction of thread t: READY on a running tile, no result that holds issue, the fetch through PCC, then the rest. -/
def tryIssue (s : State) (t : Tid) (p : Pre) : Admit :=
  let th := s.thr t
  if th.st ≠ .ready ∨ !s.tileRuns (tileOf t) then .idle
  else
    let hold := (th.outs.filter holdsIssue).map (·.stamp)
    if !hold.isEmpty then .stopped (s.park t (.result hold))
    else if th.parity.contains 32 then .stopped (s.raiseParity t 32)
    else
      match s.check t (fetchReq th.pcc) with
      | (s, .ok segs) =>
        (match s.missesFetch t segs with
          | some line => .stopped (s.park t (.fetch line))
          | none => admitFetched s t p)
      | (s, .part _ e) => .stopped (s.raise t e)
      | (s, .exc e) => .stopped (s.raise t e)
      | (s, .ue d e) => .stopped (s.raiseUe t d e)
      | (s, .wait) => .stopped (s.park t (.heldLine false))
      | (s, .abort a) => .stopped (s.abortPlate t a)

/-- The end of an instruction with these destinations that issued at stamp k. -/
def Act.finish (t : Tid) (k : Nat) (dests : List Reg) : Act → State
  | .done s => (s.modThr t (fun th => (th.dropOlder k dests).advance 4)).boundary t
  | .jump s => (s.modThr t (fun th => th.dropOlder k dests)).boundary t
  | .again s => (s.modThr t (fun th => th.dropOlder k dests)).boundary t
  | .raise s e => s.raise t e
  | .ue s d e => s.raiseUe t d e
  | .abort s a => (pumpAll (s.abortPlate t a) (s.plate t).sends).boundary t
  | .wait s w => s.modThr t (fun th => { th with st := .waiting w })
  | .hold s w => s.modThr t (fun th => { th with issued := th.issued - 1, sinceTick := th.sinceTick - 1, st := .parked w })

/-- How an access that its checks did not let through ends its instruction; `block` is the read of a block iteration. -/
def Chk.refusal (s : State) (block : Bool) : Chk → Act
  | .part _ e => .raise s e
  | .exc e => .raise s e
  | .ue d e => .ue s d e
  | .wait => .hold s (.heldLine block)
  | .abort a => .abort s a
  | .ok _ => .again s

/-- An access that must follow an outstanding one of its thread to the same granule is not issued: the thread parks (R67, R168). -/
def holdAccess (s : State) (t : Tid) (gs : List Nat) : Option Act :=
  let l := ((s.thr t).outs.filter (fun o => o.kind.granules.any gs.contains)).map (·.stamp)
  if l.isEmpty then none else some (.hold s (.result l))

/-- The granules of checked segments. -/
def segGranules (segs : List Seg) : List Nat := segs.map (fun x => x.pa / 16)

/-- A store that is performed at once follows its thread's outstanding accesses of its granules: one of a plate, or through a Device page (R168). -/
def State.holdStore (s : State) (t : Tid) (segs : List Seg) : Option Act :=
  if decide ((s.plate t).pdepth ≠ 0) || !allCached s segs then holdAccess s t (segGranules segs) else none

/-- The end of a store whose granules may be written: done, or GATE_DENY once the allowed ones are (R48, R366). -/
def storeEnd (e : Option Exc) : Perf Unit → Act
  | .ok s _ =>
    (match e with
      | some e => .raise s e
      | none => .done s)
  | .abort s x => .abort s x

/-- Issues an instruction: admission, then its body, then its end. -/
def issue (s : State) (t : Tid) (p : Pre) (body : State → Act) : State :=
  match tryIssue s t p with
  | .idle => s
  | .stopped s' => s'
  | .go s' => (body s').finish t s'.fresh p.dests

/-- Pending RWS writes take effect (R92). -/
def Thread.applySync (th : Thread) : Thread :=
  { th with tgrp := th.tgrpP.getD th.tgrp, tgrpP := none, rsMode := th.rsModeP.getD th.rsMode, rsModeP := none,
            ipl := th.iplP.getD th.ipl, iplP := none, trootM := th.trootMP.getD th.trootM, trootMP := none,
            trootV := th.trootVP.getD th.trootV, trootVP := none, pklock := th.pklockP.getD th.pklock, pklockP := none }

/-- Earlier loads are outstanding: loads, Device loads and atomics (R173). -/
def Thread.loadsOut (th : Thread) : Bool := th.outs.any (fun o => !o.kind.isLong)

/-- Earlier stores are outstanding: stores not visible or not answered, and atomics (R173). -/
def Thread.storesOut (th : Thread) : Bool :=
  !th.stores.isEmpty || th.outs.any (fun o => match o.kind with
    | .atomic _ _ _ _ _ _ _ => true
    | _ => false)

/-- A FENCE with this mask still waits (R173). -/
def Thread.fenceHolds (th : Thread) (mask : BitVec 4) : Bool :=
  (mask.getLsbD 3 && th.loadsOut) || (mask.getLsbD 2 && th.storesOut)

end Sys2Proof.Machine
end

