-- ==== Sys2Proof/Machine/Integer.lean ====
section
/-! DEFINITION. Integer register and immediate instructions (R99 to R102). -/

namespace Sys2Proof.Machine

/-- wr_int(rd, f(rs1, rs2)) of R99. -/
def aluBody (f : Word → Word → Word) (t : Tid) (rd rs1 rs2 : Reg) (s : State) : Act :=
  .done (s.modThr t (fun th => th.wrInt rd (f (th.reg rs1).low (th.reg rs2).low)))

/-- A two-operand integer instruction (R99). -/
def alu (f : Word → Word → Word) (t : Tid) (rd rs1 rs2 : Reg) (s : State) : Result State :=
  .next (issue s t { srcs := [rs1, rs2], dests := [rd] } (aluBody f t rd rs1 rs2))

/-- wr_int(rd, f(rs1)) of R101. -/
def immBody (f : Word → Word) (t : Tid) (rd rs1 : Reg) (s : State) : Act :=
  .done (s.modThr t (fun th => th.wrInt rd (f (th.reg rs1).low)))

/-- An immediate instruction (R101). -/
def aluImm (f : Word → Word) (t : Tid) (rd rs1 : Reg) (s : State) : Result State :=
  .next (issue s t { srcs := [rs1], dests := [rd] } (immBody f t rd rs1))

/-- 1 or 0 (R84). -/
def flagWord (b : Bool) : Word := if b then 1 else 0

/-- A result that a long operation writes later (R72). -/
def State.addOut (s : State) (t : Tid) (rd : Reg) (te : Bool) (k : OutKind) : State :=
  s.modThr t (fun th => { th with outs := th.outs ++ [{ stamp := s.fresh, rd := rd, te := te, kind := k }] })

/-- A divide: the divider is busy until the result is written (R72); the operands are read at issue (R67). -/
def divideBody (f : Word → Word → Word) (t : Tid) (rd rs1 rs2 : Reg) (s : State) : Act :=
  let th := s.thr t
  let s := s.setTile (tileOf t) { s.tile (tileOf t) with divBusy := true }
  .done (s.addOut t rd false (.divide (f (th.reg rs1).low (th.reg rs2).low)))

/-- An integer divide instruction (R72, R99, R100). -/
def divide (f : Word → Word → Word) (t : Tid) (rd rs1 rs2 : Reg) (s : State) : Result State :=
  .next (issue s t { srcs := [rs1, rs2], dests := [rd], divider := true } (divideBody f t rd rs1 rs2))

/-- The functions of R99. -/
def opAndn (a b : Word) : Word := a &&& ~~~b
def opSll (a b : Word) : Word := a <<< bitsOf b 0 6
def opSrl (a b : Word) : Word := a >>> bitsOf b 0 6
def opSra (a b : Word) : Word := a.sshiftRight (bitsOf b 0 6)
def opSeq (a b : Word) : Word := flagWord (decide (a = b))
def opSne (a b : Word) : Word := flagWord (decide (a ≠ b))
def opSlt (a b : Word) : Word := flagWord (a.slt b)
def opSltu (a b : Word) : Word := flagWord (a.ult b)
def opSle (a b : Word) : Word := flagWord (a.sle b)
def opSleu (a b : Word) : Word := flagWord (a.ule b)
def opMin (a b : Word) : Word := if b.slt a then b else a
def opMax (a b : Word) : Word := if a.slt b then b else a
def opMulh (a b : Word) : Word := BitVec.ofInt 64 (a.toInt * b.toInt / 18446744073709551616)
def opMulhu (a b : Word) : Word := BitVec.ofNat 64 (a.toNat * b.toNat / 18446744073709551616)
/-- The quotients and remainders with the edges of R100. -/
def opDiv (a b : Word) : Word := if b = 0 then ~~~0 else BitVec.sdiv a b
def opDivu (a b : Word) : Word := if b = 0 then ~~~0 else BitVec.udiv a b
def opRem (a b : Word) : Word := if b = 0 then a else BitVec.srem a b
def opRemu (a b : Word) : Word := if b = 0 then a else BitVec.umod a b

/-- ADD (R99). -/
def execAdd (t : Tid) (rd rs1 rs2 : Reg) (s : State) : Result State := alu (fun a b => a + b) t rd rs1 rs2 s
/-- SUB (R99). -/
def execSub (t : Tid) (rd rs1 rs2 : Reg) (s : State) : Result State := alu (fun a b => a - b) t rd rs1 rs2 s
/-- AND (R99). -/
def execAnd (t : Tid) (rd rs1 rs2 : Reg) (s : State) : Result State := alu (fun a b => a &&& b) t rd rs1 rs2 s
/-- OR (R99). -/
def execOr (t : Tid) (rd rs1 rs2 : Reg) (s : State) : Result State := alu (fun a b => a ||| b) t rd rs1 rs2 s
/-- XOR (R99). -/
def execXor (t : Tid) (rd rs1 rs2 : Reg) (s : State) : Result State := alu (fun a b => a ^^^ b) t rd rs1 rs2 s
/-- ANDN (R99). -/
def execAndn (t : Tid) (rd rs1 rs2 : Reg) (s : State) : Result State := alu opAndn t rd rs1 rs2 s
/-- SLL (R99). -/
def execSll (t : Tid) (rd rs1 rs2 : Reg) (s : State) : Result State := alu opSll t rd rs1 rs2 s
/-- SRL (R99). -/
def execSrl (t : Tid) (rd rs1 rs2 : Reg) (s : State) : Result State := alu opSrl t rd rs1 rs2 s
/-- SRA (R99). -/
def execSra (t : Tid) (rd rs1 rs2 : Reg) (s : State) : Result State := alu opSra t rd rs1 rs2 s
/-- SEQ (R99). -/
def execSeq (t : Tid) (rd rs1 rs2 : Reg) (s : State) : Result State := alu opSeq t rd rs1 rs2 s
/-- SNE (R99). -/
def execSne (t : Tid) (rd rs1 rs2 : Reg) (s : State) : Result State := alu opSne t rd rs1 rs2 s
/-- SLT (R99). -/
def execSlt (t : Tid) (rd rs1 rs2 : Reg) (s : State) : Result State := alu opSlt t rd rs1 rs2 s
/-- SLTU (R99). -/
def execSltu (t : Tid) (rd rs1 rs2 : Reg) (s : State) : Result State := alu opSltu t rd rs1 rs2 s
/-- SLE (R99). -/
def execSle (t : Tid) (rd rs1 rs2 : Reg) (s : State) : Result State := alu opSle t rd rs1 rs2 s
/-- SLEU (R99). -/
def execSleu (t : Tid) (rd rs1 rs2 : Reg) (s : State) : Result State := alu opSleu t rd rs1 rs2 s
/-- MIN (R99). -/
def execMin (t : Tid) (rd rs1 rs2 : Reg) (s : State) : Result State := alu opMin t rd rs1 rs2 s
/-- MAX (R99). -/
def execMax (t : Tid) (rd rs1 rs2 : Reg) (s : State) : Result State := alu opMax t rd rs1 rs2 s
/-- MUL (R99). -/
def execMul (t : Tid) (rd rs1 rs2 : Reg) (s : State) : Result State := alu (fun a b => a * b) t rd rs1 rs2 s
/-- MULH (R99). -/
def execMulh (t : Tid) (rd rs1 rs2 : Reg) (s : State) : Result State := alu opMulh t rd rs1 rs2 s
/-- MULHU (R99). -/
def execMulhu (t : Tid) (rd rs1 rs2 : Reg) (s : State) : Result State := alu opMulhu t rd rs1 rs2 s
/-- DIV (R99, R100). -/
def execDiv (t : Tid) (rd rs1 rs2 : Reg) (s : State) : Result State := divide opDiv t rd rs1 rs2 s
/-- DIVU (R99, R100). -/
def execDivu (t : Tid) (rd rs1 rs2 : Reg) (s : State) : Result State := divide opDivu t rd rs1 rs2 s
/-- REM (R99, R100). -/
def execRem (t : Tid) (rd rs1 rs2 : Reg) (s : State) : Result State := divide opRem t rd rs1 rs2 s
/-- REMU (R99, R100). -/
def execRemu (t : Tid) (rd rs1 rs2 : Reg) (s : State) : Result State := divide opRemu t rd rs1 rs2 s

/-- ADDI (R101). -/
def execAddi (t : Tid) (rd rs1 : Reg) (imm : BitVec 14) (s : State) : Result State := aluImm (fun a => a + sext14 imm) t rd rs1 s
/-- ANDI (R101). -/
def execAndi (t : Tid) (rd rs1 : Reg) (imm : BitVec 14) (s : State) : Result State := aluImm (fun a => a &&& sext14 imm) t rd rs1 s
/-- ORI (R101). -/
def execOri (t : Tid) (rd rs1 : Reg) (imm : BitVec 14) (s : State) : Result State := aluImm (fun a => a ||| zext14 imm) t rd rs1 s
/-- XORI (R101). -/
def execXori (t : Tid) (rd rs1 : Reg) (imm : BitVec 14) (s : State) : Result State := aluImm (fun a => a ^^^ zext14 imm) t rd rs1 s
/-- SLTI (R101). -/
def execSlti (t : Tid) (rd rs1 : Reg) (imm : BitVec 14) (s : State) : Result State := aluImm (fun a => opSlt a (sext14 imm)) t rd rs1 s
/-- SLTIU (R101). -/
def execSltiu (t : Tid) (rd rs1 : Reg) (imm : BitVec 14) (s : State) : Result State := aluImm (fun a => opSltu a (sext14 imm)) t rd rs1 s
/-- SLLI (R101). -/
def execSlli (t : Tid) (rd rs1 : Reg) (sh : BitVec 6) (s : State) : Result State := aluImm (fun a => a <<< sh.toNat) t rd rs1 s
/-- SRLI (R101). -/
def execSrli (t : Tid) (rd rs1 : Reg) (sh : BitVec 6) (s : State) : Result State := aluImm (fun a => a >>> sh.toNat) t rd rs1 s
/-- SRAI (R101). -/
def execSrai (t : Tid) (rd rs1 : Reg) (sh : BitVec 6) (s : State) : Result State := aluImm (fun a => a.sshiftRight sh.toNat) t rd rs1 s

/-- The body of LIU (R102). -/
def liuBody (t : Tid) (rd : Reg) (imm : BitVec 20) (s : State) : Act :=
  .done (s.modThr t (fun th => th.wrInt rd (imm.signExtend 64 <<< 14)))
/-- LIU (R102). -/
def execLiu (t : Tid) (rd : Reg) (imm : BitVec 20) (s : State) : Result State := .next (issue s t { dests := [rd] } (liuBody t rd imm))

/-- The body of CPCREL (R109). -/
def cpcrelBody (t : Tid) (rd : Reg) (imm : BitVec 20) (s : State) : Act :=
  .done (s.modThr t (fun th => th.setReg rd (th.pcc.moveCursor (th.pcc.ea (off20 imm)))))
/-- CPCREL (R109). -/
def execCpcrel (t : Tid) (rd : Reg) (imm : BitVec 20) (s : State) : Result State :=
  .next (issue s t { dests := [rd] } (cpcrelBody t rd imm))

end Sys2Proof.Machine
end

