-- ==== Sys2Proof/Machine/Settle.lean ====
section
/-! DEFINITION. What ends a wait: opening a plate once earlier accesses are done (R176, R187, R209), and re-examining a PARKED or WAITING
thread after a completion (R65, R67, R74, R92, R116, R120, R260). -/

namespace Sys2Proof.Machine

/-- Bellows refuses the work class of a group: parked, or the purse below the class's energy per plate (R209, R389). -/
def State.refusesGroup (s : State) (g : BitVec 4) : Bool :=
  let c := s.workClass g
  decide (2 ≤ c) && decide (s.rfield .bwCtrl 0 1 = 1) &&
    (decide (s.rfield .plan (8 + (c - 2)) 1 = 1) || decide (Map.get 0 s.bellows.purses g.toNat < Map.get 0 s.bellows.epp c))

/-- The abort target of a PBEGIN at PCC (R186). -/
def abortTarget (pcc : Cap) (off : BitVec 14) : Cap := pcc.moveCursor (pcc.ea (4 * off.toInt))

/-- The plate record that an outermost PBEGIN opens (R187, R214). -/
def Thread.openedPlate (th : Thread) (rd : Reg) (off : BitVec 14) (defer : Bool) : Plate :=
  { Plate.reset with phase := .live, pdepth := 1, rd := rd, target := abortTarget th.pcc off, defer := defer, rsDepth := th.rstack.length,
                     wasDefer := defer, group := th.tgrp, abortPc := th.plate.abortPc, lastCsn := th.plate.lastCsn }

/-- The plate record after a refused PBEGIN: cause ENERGY, RETRY 1, ADEPTH 0 (R205, R214). -/
def Thread.refusedPlate (th : Thread) (defer : Bool) : Plate :=
  { th.plate with code := 0, shared := false, wasDefer := defer, retry := true, adepth := 0, cause := 9 }

/-- An outermost PBEGIN once every earlier access has completed (R187): the thread has moved past it, or to the abort target. -/
def State.openPlate (s : State) (t : Tid) (rd : Reg) (off : BitVec 14) (defer : Bool) : State :=
  let th := s.thr t
  if s.refusesGroup th.tgrp then
    let p := th.refusedPlate defer
    s.setThr t { (th.wrInt rd (p.status 0)) with plate := p, pcc := abortTarget th.pcc off }
  else s.setThr t (Thread.advance { (th.wrInt rd 0) with plate := th.openedPlate rd off defer } 4)

/-- All earlier accesses of the thread are done (R176, R187). -/
def Thread.quiet (th : Thread) : Bool := !th.loadsOut && th.stores.isEmpty

/-- The thread is READY at an instruction boundary (R65). -/
def State.readyAt (s : State) (t : Tid) : State := (s.makeReady t).boundary t

/-- The tiles and clusters that acknowledge a broadcast (R260). A tile in RETENTION or OFF acknowledges at once (R258). -/
def invalTiles (s : State) : List Nat :=
  (List.range 64).filter (fun n => !(decide (s.power n = .retention) || decide (s.power n = .off)))

/-- The broadcast of INVAL.V starts (R260). -/
def State.startInval (s : State) (t : Tid) (op : Word) : State :=
  let s := { s with invals := s.invals ++ [Inval.mk [] t op (invalTiles s) (List.range 16)] }
  s.modThr t (fun th => { th with st := .waiting .inval })

/-- SYNC.I discards what thread t has fetched: it fetches the lines of the L1 instruction cache again, the tile's other threads do not (R116, R183). -/
def State.dropFetched (s : State) (t : Tid) : State := s.modThr t (fun th => { th with refetch := (s.tile (tileOf t)).l1i.map (·.1) })

/-- A PCOMMIT of a plate that takes no CSN (R187, R192): rd is the highest CSN assigned so far. -/
def State.commitEmpty (s : State) (t : Tid) (rd : Reg) : State :=
  let s := s.chargePlate t true 0
  let csn := s.nextCsn - 1
  s.modThr t (fun th => { th.wrInt rd (BitVec.ofNat 64 csn) with plate := th.plate.ended csn })

/-- Re-examines a thread after one of its results or stores completed. -/
def State.settle (s : State) (t : Tid) : State :=
  let th := s.thr t
  match th.st with
  | .parked (.result l) => if l.any (fun k => th.outs.any (fun o => decide (o.stamp = k))) then s else s.readyAt t
  | .waiting .entry =>
    match th.entry with
    | some e => if th.outs.isEmpty then s.enter t e else s
    | none => s
  | .waiting (.fence m) => if th.fenceHolds m then s else s.complete t
  | .waiting .sync => if th.outs.isEmpty then (s.modThr t Thread.applySync).complete t else s
  | .waiting .syncI => if !th.storesOut then (s.dropFetched t).complete t else s
  | .waiting .texit => if th.outs.isEmpty then endClaims (s.modThr t Thread.emptied) t else s
  | .waiting (.invalStores op) => if !th.storesOut then s.startInval t op else s
  | .waiting .interrupt => if th.outs.isEmpty && (s.dueVector t).isNone then s.readyAt t else s
  | .waiting .pcommit =>
    if decide (th.plate.phase = .committing) && !th.plate.takesCsn && !th.loadsOut && s.emptyCommits then (s.commitEmpty t th.plate.commitRd).complete t else s
  | .waiting (.pbegin rd off defer) => if th.quiet then (s.openPlate t rd off defer).readyAt t else s
  | _ => s

/-- Re-examines every listed thread, after a publishing. -/
def State.settleAll (s : State) : State := s.threadList.foldl (fun s n => s.settle (BitVec.ofNat 9 n)) s

end Sys2Proof.Machine
end

