-- ==== Sys2Proof/Machine/LoadStore.lean ====
section
/-! DEFINITION. Loads, stores, PREF and speculative accesses (R110 to R113, R182). -/

namespace Sys2Proof.Machine

/-- An earlier outstanding access of the thread touches one of the granules, so a later one is not performed yet (R168, R172). -/
def outsTouch (outs : List Out) (gs : List Nat) : Bool := outs.any (fun o => o.kind.granules.any gs.contains)

/-- The tag that a capability load finds (R110). -/
def loadTag (s : State) (t : Tid) (stamp : Nat) (segs : List (Nat × Nat)) : Bool :=
  match segs with
  | [(a, _)] => s.isDram a && (s.viewGranule t stamp (a / 16)).tag
  | _ => false

/-- An access of a plate becomes outstanding (R69, R193). -/
def State.sendOut (s : State) (t : Tid) (rd : Reg) (k : OutKind) : Act :=
  match s.joinOut t k with
  | .ok s _ => .done (s.addOut t rd false k)
  | .abort s a => .abort s a

/-- A checked load is performed: at once, or as an outstanding result (R69, R168, R174). -/
def State.doLoad (s : State) (t : Tid) (rd : Reg) (n : Nat) (signed asCap ldc hit : Bool) (segs : List Seg) : Act :=
  let ps := segs.map (fun x => (x.pa, x.len))
  if allCached s segs then
    if hit && !outsTouch (s.thr t).outs (ps.map (fun x => x.1 / 16)) then
      let tag := ldc && loadTag s t s.fresh ps
      match s.loadDram t s.fresh ps with
      | .ok s v => .done (s.modThr t (fun th => th.setReg rd (loadResult n signed asCap v tag)))
      | .abort s a => .abort s a
    else s.sendOut t rd (.load ps signed asCap ldc)
  else
    match holdAccess s t (segGranules segs) with
    | some a => a
    | none =>
      let tag := ldc && loadTag s t s.fresh ps
      let (s, v) := s.loadDevice t ps
      let c := loadResult n signed asCap v tag
      if hit then .done (s.modThr t (fun th => th.setReg rd c)) else .done (s.addOut t rd false (.device c))

/-- The body of a load (R110, R111). -/
def loadBody (n : Nat) (signed asCap : Bool) (t : Tid) (rd rs1 : Reg) (imm : BitVec 14) (hit : Bool) (s : State) : Act :=
  let c := (s.thr t).reg rs1
  match s.check t (loadReq c rs1 (c.ea imm.toInt) n (if asCap then 16 else 1)) with
  | (s, .ok segs) => s.doLoad t rd n signed asCap (c.has .ldc) hit segs
  | (s, r) => r.refusal s false

/-- A load instruction. -/
def load (n : Nat) (signed asCap : Bool) (t : Tid) (rd rs1 : Reg) (imm : BitVec 14) (hit : Bool) (s : State) : Result State :=
  .next (issue s t { srcs := [rs1], dests := [rd] } (loadBody n signed asCap t rd rs1 imm hit))

/-- LB (R110). -/
def execLb (t : Tid) (rd rs1 : Reg) (imm : BitVec 14) (hit : Bool) (s : State) : Result State := load 1 true false t rd rs1 imm hit s
/-- LBU (R110). -/
def execLbu (t : Tid) (rd rs1 : Reg) (imm : BitVec 14) (hit : Bool) (s : State) : Result State := load 1 false false t rd rs1 imm hit s
/-- LH (R110). -/
def execLh (t : Tid) (rd rs1 : Reg) (imm : BitVec 14) (hit : Bool) (s : State) : Result State := load 2 true false t rd rs1 imm hit s
/-- LHU (R110). -/
def execLhu (t : Tid) (rd rs1 : Reg) (imm : BitVec 14) (hit : Bool) (s : State) : Result State := load 2 false false t rd rs1 imm hit s
/-- LW (R110). -/
def execLw (t : Tid) (rd rs1 : Reg) (imm : BitVec 14) (hit : Bool) (s : State) : Result State := load 4 true false t rd rs1 imm hit s
/-- LWU (R110). -/
def execLwu (t : Tid) (rd rs1 : Reg) (imm : BitVec 14) (hit : Bool) (s : State) : Result State := load 4 false false t rd rs1 imm hit s
/-- LD (R110). -/
def execLd (t : Tid) (rd rs1 : Reg) (imm : BitVec 14) (hit : Bool) (s : State) : Result State := load 8 false false t rd rs1 imm hit s
/-- LQ (R110). -/
def execLq (t : Tid) (rd rs1 : Reg) (imm : BitVec 14) (hit : Bool) (s : State) : Result State := load 16 false false t rd rs1 imm hit s
/-- LC (R110). -/
def execLc (t : Tid) (rd rs1 : Reg) (imm : BitVec 14) (hit : Bool) (s : State) : Result State := load 16 false true t rd rs1 imm hit s

/-- The granule events of a checked store: a capability store, or bytes (R55, R111). -/
def storeWrites (asCap : Bool) (v : Cap) (n a : Nat) (segs : List Seg) : List GWrite :=
  if asCap then segs.map (fun x => .cap (x.pa / 16) v) else segWrites segs (leBytes n v.bits.toNat) a

/-- A checked store is performed: into the plate, the thread's pending stores, or a device (R170, R174, R194). -/
def State.doStore (s : State) (t : Tid) (asCap : Bool) (v : Cap) (n a : Nat) (segs : List Seg) : Perf Unit :=
  if allCached s segs then s.storeDram t (storeWrites asCap v n a segs)
  else
    .ok (s.storeDevice t (segs.map (fun x => (x.pa, ((leBytes n v.bits.toNat).drop (x.va - a)).take x.len)))
      (if asCap then some v else none)).after ()

/-- The body of a store (R111, R112): the granules that the gates allowed are written before GATE_DENY is raised (R48, R366). -/
def storeBody (n : Nat) (asCap : Bool) (t : Tid) (rs2 rs1 : Reg) (imm : BitVec 14) (s : State) : Act :=
  let th := s.thr t
  let c := th.reg rs1
  let v := th.reg rs2
  let a := c.ea imm.toInt
  match s.check t (storeReq c rs1 a n (if asCap then 16 else 1) (if asCap then capStoreRights v else [])) with
  | (s, .ok segs) => (s.holdStore t segs).getD (storeEnd none (s.doStore t asCap v n a segs))
  | (s, .part segs e) => (s.holdStore t segs).getD (storeEnd (some e) (s.doStore t asCap v n a segs))
  | (s, r) => r.refusal s false

/-- A store instruction. -/
def store (n : Nat) (asCap : Bool) (t : Tid) (rs2 rs1 : Reg) (imm : BitVec 14) (s : State) : Result State :=
  .next (issue s t { srcs := [rs1, rs2] } (storeBody n asCap t rs2 rs1 imm))

/-- SB (R111). -/
def execSb (t : Tid) (rs2 rs1 : Reg) (imm : BitVec 14) (s : State) : Result State := store 1 false t rs2 rs1 imm s
/-- SH (R111). -/
def execSh (t : Tid) (rs2 rs1 : Reg) (imm : BitVec 14) (s : State) : Result State := store 2 false t rs2 rs1 imm s
/-- SW (R111). -/
def execSw (t : Tid) (rs2 rs1 : Reg) (imm : BitVec 14) (s : State) : Result State := store 4 false t rs2 rs1 imm s
/-- SD (R111). -/
def execSd (t : Tid) (rs2 rs1 : Reg) (imm : BitVec 14) (s : State) : Result State := store 8 false t rs2 rs1 imm s
/-- SQ (R111). -/
def execSq (t : Tid) (rs2 rs1 : Reg) (imm : BitVec 14) (s : State) : Result State := store 16 false t rs2 rs1 imm s
/-- SC (R111). -/
def execSc (t : Tid) (rs2 rs1 : Reg) (imm : BitVec 14) (s : State) : Result State := store 16 true t rs2 rs1 imm s

/-- A speculative or prefetch access of a line (R182): it may fill the TLBs and it reports an uncorrectable error that it finds; it
raises nothing, waits for nothing and joins no set. `vault` says whether its capability reaches Vault pages (check 7 of R48). -/
def State.speculate (s : State) (t : Tid) (va : Nat) (q : Want) (vault : Bool) : State :=
  let th := s.thr t
  match s.translateAs t th.world th.level (va % vaSpace) q true with
  | (s', .ok x) =>
    let line := x.pa / 64
    if x.ptype = .device ∨ (x.world = .vault ∧ !vault) ∨ !s'.isDram x.pa ∨ s'.heldByOther (some t) line ∨ !(s'.meets (some t) line q.wr).isEmpty then s'
    else
      match s'.gateAccess (.tile t) x.pa (q.rd || q.ex) q.wr none with
      | (_, .deny _ _ _) => s'
      | (s, _) => if s.inError line then s.foundError (.tile t) line else s.mediaRead line
  | (s', _) => s'

/-- The body of PREF (R113): one that would fail a check is dropped. It counts as a load of the byte at ea for the checks of R48, and asks the page for W
where it asks for the line in a writable state: DESIGN CHOICE (log entry 41). -/
def prefBody (t : Tid) (rs1 : Reg) (imm : BitVec 14) (writable : Bool) (s : State) : Act :=
  let c := (s.thr t).reg rs1
  let a := c.ea imm.toInt
  match checkCap (loadReq c rs1 a 1 1) with
  | some _ => .done s
  | none => .done (s.speculate t a ⟨!writable, writable, false⟩ (c.has .vault))

/-- PREF (R113). -/
def execPref (t : Tid) (rs1 : Reg) (imm : BitVec 14) (writable : Bool) (s : State) : Result State :=
  .next (issue s t { srcs := [rs1] } (prefBody t rs1 imm writable))

/-- SPECULATIVE_ACCESS: a prefetcher, or fetch ahead of PCC (R182). -/
def execSpeculativeAccess (t : Tid) (va : BitVec 54) (fetch : Bool) (s : State) : Result State :=
  .next (if s.tileRuns (tileOf t) then s.speculate t va.toNat ⟨!fetch, false, fetch⟩ true else s)

end Sys2Proof.Machine
end

