-- ==== Sys2Proof/Machine/Atomic.lean ====
section
/-! DEFINITION. Atomics, and the completions of outstanding results and stores (R67, R71 to R74, R114, R173, R175). -/

namespace Sys2Proof.Machine

/-- SIZE 2 and 3 only with SWAP and CAS, SIZE 4 and above never (R114). -/
def atomicIllegal (op : AtomOp) (size : BitVec 4) : Bool :=
  decide (4 ≤ size.toNat) || (decide (2 ≤ size.toNat) && !(decide (op = .swap) || decide (op = .cas)))

/-- The body of an atomic (R114): performed at once on a hit with nothing earlier that it must follow (R168, R175), else outstanding. -/
def atomicBody (op : AtomOp) (t : Tid) (rd rs1 rs2 : Reg) (aq rl : Bool) (size : BitVec 4) (hit : Bool) (s : State) : Act :=
  let th := s.thr t
  let c := th.reg rs1
  let v := th.reg rs2
  let n := atomicBytes size.toNat
  let extra := if size = 3 then .ldc :: capStoreRights v else []
  match s.check t (atomicReq c rs1 n extra) with
  | (s, .ok segs) =>
    match segs with
    | [] => .done s
    | x :: _ =>
      let th := s.thr t
      if !s.isDram x.pa then
        .done ((s.reservedEvent (.tile t) x.pa).modThr t (fun th => th.setReg rd Cap.null))
      else if !hit || outsTouch th.outs (flushSet th.stores (x.pa / 16)) || (rl && (th.loadsOut || th.storesOut)) then
        s.sendOut t rd (.atomic op size.toNat x.pa v (th.reg rd) aq rl)
      else
        match s.doAtomic t s.fresh op size.toNat x.pa v (th.reg rd) with
        | .ok s r => .done (s.modThr t (fun th => th.setReg rd r))
        | .abort s a => .abort s a
  | (s, r) => r.refusal s false

/-- An atomic instruction. -/
def atomic (op : AtomOp) (t : Tid) (rd rs1 rs2 : Reg) (aq rl : Bool) (size : BitVec 4) (hit : Bool) (s : State) : Result State :=
  .next (issue s t { illegal := atomicIllegal op size, srcs := if op = .cas then [rs1, rs2, rd] else [rs1, rs2], dests := [rd] }
    (atomicBody op t rd rs1 rs2 aq rl size hit))

/-- SWAP (R114). -/
def execAtomicSwap (t : Tid) (rd rs1 rs2 : Reg) (aq rl : Bool) (size : BitVec 4) (hit : Bool) (s : State) : Result State :=
  atomic .swap t rd rs1 rs2 aq rl size hit s
/-- ADD (R114). -/
def execAtomicAdd (t : Tid) (rd rs1 rs2 : Reg) (aq rl : Bool) (size : BitVec 4) (hit : Bool) (s : State) : Result State :=
  atomic .add t rd rs1 rs2 aq rl size hit s
/-- AND (R114). -/
def execAtomicAnd (t : Tid) (rd rs1 rs2 : Reg) (aq rl : Bool) (size : BitVec 4) (hit : Bool) (s : State) : Result State :=
  atomic .and t rd rs1 rs2 aq rl size hit s
/-- OR (R114). -/
def execAtomicOr (t : Tid) (rd rs1 rs2 : Reg) (aq rl : Bool) (size : BitVec 4) (hit : Bool) (s : State) : Result State :=
  atomic .or t rd rs1 rs2 aq rl size hit s
/-- XOR (R114). -/
def execAtomicXor (t : Tid) (rd rs1 rs2 : Reg) (aq rl : Bool) (size : BitVec 4) (hit : Bool) (s : State) : Result State :=
  atomic .xor t rd rs1 rs2 aq rl size hit s
/-- MAX (R114). -/
def execAtomicMax (t : Tid) (rd rs1 rs2 : Reg) (aq rl : Bool) (size : BitVec 4) (hit : Bool) (s : State) : Result State :=
  atomic .max t rd rs1 rs2 aq rl size hit s
/-- MIN (R114). -/
def execAtomicMin (t : Tid) (rd rs1 rs2 : Reg) (aq rl : Bool) (size : BitVec 4) (hit : Bool) (s : State) : Result State :=
  atomic .min t rd rs1 rs2 aq rl size hit s
/-- MAXU (R114). -/
def execAtomicMaxu (t : Tid) (rd rs1 rs2 : Reg) (aq rl : Bool) (size : BitVec 4) (hit : Bool) (s : State) : Result State :=
  atomic .maxu t rd rs1 rs2 aq rl size hit s
/-- MINU (R114). -/
def execAtomicMinu (t : Tid) (rd rs1 rs2 : Reg) (aq rl : Bool) (size : BitVec 4) (hit : Bool) (s : State) : Result State :=
  atomic .minu t rd rs1 rs2 aq rl size hit s
/-- CAS (R114). -/
def execCas (t : Tid) (rd rs1 rs2 : Reg) (aq rl : Bool) (size : BitVec 4) (hit : Bool) (s : State) : Result State :=
  atomic .cas t rd rs1 rs2 aq rl size hit s

/-- The thread without its n-th outstanding result, and with a new value in that result's register. -/
def Thread.arrive (th : Thread) (n : Nat) (rd : Reg) (c : Cap) : Thread := Thread.setReg { th with outs := th.outs.eraseIdx n } rd c

/-- LONG_OPERATION_COMPLETE: the n-th outstanding result, a long operation, writes its result or raises its trap (R72, R73). The frame's
PCC is then the money instruction, the last one that the thread issued. A STOPPED thread stays STOPPED, and takes the exception when debug run
control resumes it (R65, log entry 42). -/
def execLongOperationComplete (t : Tid) (n : Nat) (s : State) : Result State :=
  let th := s.thr t
  match th.outs[n]? with
  | none => .next s
  | some o =>
    if !o.kind.isLong then .next s
    else
      let th' := { th with outs := th.outs.eraseIdx n }
      match o.kind with
      | .moneyTrap _ cause =>
        if th.st = .stopped then
          let e : PEntry := { cause := causeWord { cause := cause }, fa := 0, prio := none }
          .next ((s.setThr t { Thread.advance th' (-4) with entry := some e }).freeUnits (tileOf t) [o])
        else
          let s := (s.setThr t { Thread.advance th' (-4) with st := .ready }).freeUnits (tileOf t) [o]
          .next (s.raise t { cause := cause })
      | _ => .next (((s.setThr t (th'.writeLong o)).freeUnits (tileOf t) [o]).settle t)

/-- The n-th outstanding access of the thread may be performed now: nothing earlier on the same granule (R168), and for RL nothing earlier
at all (R175). -/
def mayPerform (th : Thread) (n : Nat) (o : Out) : Bool :=
  let earlier := th.outs.take n
  let mine := th.stores.filter (fun p => decide (p.stamp < o.stamp))
  !outsTouch earlier o.kind.granules &&
    (match o.kind with
      | .atomic _ _ a _ _ _ rl => !outsTouch earlier (flushSet mine (a / 16)) && (!rl || (earlier.all (fun x => x.kind.isLong) && mine.isEmpty))
      | _ => true)

/-- What an outstanding access asks of its line. -/
def OutKind.want : OutKind → Want
  | .atomic _ _ _ _ _ _ _ => ⟨true, true, false⟩
  | _ => ⟨true, false, false⟩

/-- LOAD_DATA_ARRIVAL: the n-th outstanding result, a load, an atomic or a Device answer, is performed and written (R69, R71). It does
not arrive while a line of it is held by another plate (R180); inside a plate that aborts the plate, and so does a line found in error (R189,
R205). The fault address that follows the abort is then the physical granule's: DESIGN CHOICE (log entry 42). -/
def execLoadDataArrival (t : Tid) (n : Nat) (s : State) : Result State :=
  let th := s.thr t
  match th.outs[n]? with
  | none => .next s
  | some o =>
    if o.kind.isLong || !mayPerform th n o then .next s
    else if o.kind.granules.any (fun g => s.heldByOther (some t) (g / 4)) then
      .next (if th.plate.abortable then (s.abortPlate t .conflict).boundary t else s)
    else
      match o.kind.granules.find? (fun g => th.plate.abortable && s.ueFor t o.kind.want (g / 4)) with
      | some g =>
        .next (((s.foundError (.tile t) (g / 4)).raiseUe t (s.isDurable (16 * g)) { cause := 0x18, fa := 16 * g }).boundary t)
      | none =>
      match o.kind with
      | .device c => .next ((s.setThr t (th.arrive n o.rd c)).settle t)
      | .load segs signed asCap ldc =>
        let tag := ldc && loadTag s t o.stamp segs
        let size := segs.foldl (fun k x => k + x.2) 0
        match s.loadDram t o.stamp segs with
        | .ok s v => .next ((s.modThr t (fun th => th.arrive n o.rd (loadResult size signed asCap v tag))).settle t)
        | .abort s a => .next ((s.abortPlate t a).boundary t)
      | .atomic op size a operand expected _ _ =>
        match s.doAtomic t o.stamp op size a operand expected with
        | .ok s r => .next ((s.modThr t (fun th => th.arrive n o.rd r)).settle t)
        | .abort s x => .next ((s.abortPlate t x).boundary t)
      | _ => .next s

/-- The n-th outstanding store may become visible: no earlier pending store and no earlier outstanding access touches its granules (R168),
and no line of it is held (R180). -/
def storeMayComplete (s : State) (t : Tid) (n : Nat) (p : PStore) : Bool :=
  let th := s.thr t
  let gs := p.writes.map (·.granule)
  !((th.stores.take n).any (fun x => x.writes.any (fun w => gs.contains w.granule))) &&
    !(outsTouch (th.outs.filter (fun o => decide (o.stamp < p.stamp))) gs) && !(gs.any (fun g => s.heldByOther (some t) (lineOf g)))

/-- STORE_COMPLETE: the n-th outstanding store of the thread becomes visible to everyone, or its target has answered (R170, R173). -/
def execStoreComplete (t : Tid) (n : Nat) (s : State) : Result State :=
  match (s.thr t).stores[n]? with
  | none => .next s
  | some p =>
    if !storeMayComplete s t n p then .next s
    else
      let s := s.completeStore t p.writes
      .next ((s.modThr t (fun th => { th with stores := th.stores.eraseIdx n })).settle t)

/-- INSTRUCTION_FETCH_ARRIVAL: the line that a PARKED thread misses is in the L1 instruction cache, as memory now holds it (R67, R117). -/
def fillLine (s : State) (t : Tid) (line : Nat) : State :=
  let x := s.tile (tileOf t)
  (s.setTile (tileOf t) { x with l1i := Map.set x.l1i line (bytesAt s.mem (64 * line) 64) }).modThr t
    (fun th => { th with refetch := th.refetch.filter (fun l => decide (l ≠ line)) })

/-- INSTRUCTION_FETCH_ARRIVAL (R67): the line also fills the L2 (R196); the L1 miss counts (R382). -/
def execInstructionFetchArrival (t : Tid) (s : State) : Result State :=
  match (s.thr t).st with
  | .parked (.fetch line) =>
    let (s, lost) := touchLines s t [line]
    .next (if lost then (s.abortPlate t .evicted).boundary t else ((fillLine s t line).active (tileOf t) 0 1).makeReady t)
  | _ => .next s

end Sys2Proof.Machine
end

