-- ==== Sys2Proof/Machine/Block.lean ====
section
/-! DEFINITION. The block instructions (R145 to R163). One command is one iteration: PCC moves past the instruction with its last one
(R157). -/

namespace Sys2Proof.Machine

/-- Bytes that an iteration takes upward from cursor k with c left (R148). -/
def chunkUp (k c : Nat) : Nat := min c (16 - k % 16)

/-- Bytes that an iteration takes downward from the exclusive end k with c left (R148). -/
def chunkDown (k c : Nat) : Nat := min c (if k % 16 = 0 then 16 else k % 16)

/-- Two of the registers are the same one, not g0 (R145). -/
def sameRegs (rd rs1 rs2 : Reg) : Bool :=
  (decide (rd = rs1) && decide (rd ≠ 0)) || (decide (rd = rs2) && decide (rd ≠ 0)) || (decide (rs1 = rs2) && decide (rs1 ≠ 0))

/-- The count operand (R146). -/
def Thread.count (th : Thread) (r : Reg) : Nat := (th.reg r).low.toNat

/-- A second access of an iteration would not issue now: a line of it is held, or it must follow an outstanding access. A Device read waits for it, so
that it is performed once (R174). -/
def notYet (s : State) (t : Tid) (q : Req) : Option Act :=
  match s.check t q with
  | (_, .wait) => some (.hold s (.heldLine true))
  | (s', .ok segs) => (holdAccess s' t (segGranules segs)).map (fun _ => .hold s (.result ((s.thr t).outs.map (·.stamp))))
  | _ => none

/-- One read of an iteration: its check, then the read (R150, R151); `other` is the iteration's second access. The continuation gets the value and
whether every granule was tagged. -/
def blockRead (s : State) (t : Tid) (q : Req) (other : Option Req) (k : State → Nat → Bool → Act) : Act :=
  match s.check t q with
  | (s, .ok segs) =>
    match (holdAccess s t (segGranules segs)).orElse (fun _ => if allCached s segs then none else other.bind (notYet s t)) with
    | some a => a
    | none =>
      let ps := segs.map (fun x => (x.pa, x.len))
      let tag := loadTag s t s.fresh ps
      if allCached s segs then
        match s.loadDram t s.fresh ps with
        | .ok s v => k s v tag
        | .abort s a => .abort s a
      else
        let (s, v) := s.loadDevice t ps
        k s v tag
  | (s, r) => r.refusal s true

/-- The destination write of an iteration: its check, then the write (R150, R151). -/
def blockWrite (s : State) (t : Tid) (q : Req) (asCap : Bool) (v : Cap) (k : State → Act) : Act :=
  match s.check t q with
  | (s, .ok segs) =>
    match holdAccess s t (segGranules segs) with
    | some a => a
    | none =>
      match s.doStore t asCap v q.size q.addr segs with
      | .ok s _ => k s
      | .abort s a => .abort s a
  | (s, r) => r.refusal s false

/-- A cursor moved by k bytes; nothing else of the capability changes (R149). -/
def slide (c : Cap) (k : Int) : Cap := c.setCursor (c.ea k)

/-- The end of an iteration that leaves c bytes: the next iteration, or the end of the instruction. -/
def iterationEnd (s : State) (c : Nat) : Act := if c = 0 then .done s else .again s

/-- The ALIGN tests of BMOV with TAGS = 1 (R152). -/
def tagsAlign (th : Thread) (rd rs1 rs2 : Reg) : Option Exc :=
  let d := (th.reg rd).cursor
  let a := (th.reg rs1).cursor
  if d % 16 ≠ 0 then some { cause := 0x08, detail := rd.toNat, fa := d }
  else if a % 16 ≠ 0 then some { cause := 0x08, detail := rs1.toNat, fa := a }
  else if th.count rs2 % 16 ≠ 0 then some { cause := 0x08, detail := rs2.toNat, fa := d }
  else none

/-- One iteration of BMOV (R148 to R153). -/
def bmovBody (t : Tid) (rd rs1 rs2 : Reg) (tags dir : Bool) (s : State) : Act :=
  let th := s.thr t
  let c := th.count rs2
  if c = 0 then .done s
  else
    match (if tags then tagsAlign th rd rs1 rs2 else none) with
    | some e => .raise s e
    | none =>
      let d := th.reg rd
      let a := th.reg rs1
      let n := if tags then 16 else if dir then chunkDown d.cursor c else chunkUp d.cursor c
      let back : Int := if dir then -(n : Int) else 0
      let step : Int := if dir then -(n : Int) else n
      blockRead s t (loadReq a rs1 (a.ea back) n (if tags then 16 else 1))
          (some (storeReq d rd (d.ea back) n (if tags then 16 else 1) [])) fun s v tag =>
        let x : Cap := ⟨BitVec.ofNat 128 v, tags && tag && a.has .ldc⟩
        blockWrite s t (storeReq d rd (d.ea back) n (if tags then 16 else 1) (if tags then capStoreRights x else [])) tags x fun s =>
          iterationEnd (s.modThr t (fun th =>
            ((th.setReg rd (slide d step)).setReg rs1 (slide a step)).wrInt rs2 (BitVec.ofNat 64 (c - n)))) (c - n)

/-- BMOV (R145, R153). -/
def execBmov (t : Tid) (rd rs1 rs2 : Reg) (tags dir : Bool) (s : State) : Result State :=
  .next (issue s t { illegal := (tags && dir) || sameRegs rd rs1 rs2, srcs := [rd, rs1, rs2], dests := [rd, rs1, rs2] }
    (bmovBody t rd rs1 rs2 tags dir))

/-- One iteration of BFILL (R148, R149, R154). -/
def bfillBody (t : Tid) (rd rs1 rs2 : Reg) (s : State) : Act :=
  let th := s.thr t
  let c := th.count rs2
  if c = 0 then .done s
  else
    let d := th.reg rd
    let n := chunkUp d.cursor c
    let b : Byte := (th.reg rs1).low.setWidth 8
    let x : Cap := ⟨BitVec.ofNat 128 (leValue (List.replicate n b)), false⟩
    blockWrite s t (storeReq d rd d.cursor n 1 []) false x fun s =>
      iterationEnd (s.modThr t (fun th => (th.setReg rd (slide d n)).wrInt rs2 (BitVec.ofNat 64 (c - n)))) (c - n)

/-- BFILL (R154). -/
def execBfill (t : Tid) (rd rs1 rs2 : Reg) (s : State) : Result State :=
  .next (issue s t { illegal := sameRegs rd rs1 rs2, srcs := [rd, rs1, rs2], dests := [rd, rs2] } (bfillBody t rd rs1 rs2))

/-- The offset of the first byte that satisfies p, from offset i of a list. -/
def firstByte (p : Byte → Bool) : List Byte → Option Nat
  | [] => none
  | b :: r => if p b then some 0 else (firstByte p r).map (· + 1)

/-- One iteration of BSCAN (R148, R155). -/
def bscanBody (t : Tid) (rd rs1 rs2 : Reg) (s : State) : Act :=
  let th := s.thr t
  let c := th.count rs2
  if c = 0 then .done s
  else
    let d := th.reg rd
    let n := chunkUp d.cursor c
    let b : Byte := (th.reg rs1).low.setWidth 8
    blockRead s t (loadReq d rd d.cursor n 1) none fun s v _ =>
      let upd (k : Nat) : State := s.modThr t (fun th => (th.setReg rd (slide d k)).wrInt rs2 (BitVec.ofNat 64 (c - k)))
      match firstByte (· == b) (leBytes n v) with
      | some j => .done (upd j)
      | none => iterationEnd (upd n) (c - n)

/-- BSCAN (R155). -/
def execBscan (t : Tid) (rd rs1 rs2 : Reg) (s : State) : Result State :=
  .next (issue s t { illegal := sameRegs rd rs1 rs2, srcs := [rd, rs1, rs2], dests := [rd, rs2] } (bscanBody t rd rs1 rs2))

/-- The offset of the first difference of two byte lists. -/
def firstDifference (a b : List Byte) : Option Nat :=
  match a, b with
  | x :: r, y :: q => if x ≠ y then some 0 else (firstDifference r q).map (· + 1)
  | _, _ => none

/-- One iteration of BCMP (R148, R156). -/
def bcmpBody (t : Tid) (rd rs1 rs2 : Reg) (s : State) : Act :=
  let th := s.thr t
  let c := th.count rs2
  if c = 0 then .done s
  else
    let d := th.reg rd
    let a := th.reg rs1
    let n := chunkUp d.cursor c
    blockRead s t (loadReq d rd d.cursor n 1) (some (loadReq a rs1 a.cursor n 1)) fun s v _ =>
      blockRead s t (loadReq a rs1 a.cursor n 1) none fun s w _ =>
        let upd (k : Nat) : State := s.modThr t (fun th =>
          ((th.setReg rd (slide d k)).setReg rs1 (slide a k)).wrInt rs2 (BitVec.ofNat 64 (c - k)))
        match firstDifference (leBytes n v) (leBytes n w) with
        | some j => .done (upd j)
        | none => iterationEnd (upd n) (c - n)

/-- BCMP (R156). -/
def execBcmp (t : Tid) (rd rs1 rs2 : Reg) (s : State) : Result State :=
  .next (issue s t { illegal := sameRegs rd rs1 rs2, srcs := [rd, rs1, rs2], dests := [rd, rs1, rs2] } (bcmpBody t rd rs1 rs2))

/-- The reason that bchk of R162 raises BCHK with, if any. -/
def bchkReason (c : Cap) (n : Nat) (mask : BitVec 10) : Option Nat :=
  if !c.tag then some 1
  else if c.seal ≠ 0 then some 2
  else if mask &&& ~~~(c.rights.setWidth 10) ≠ 0 then some 3
  else if c.cursor < c.base ∨ c.top < c.cursor + n then some 4
  else none

/-- The body of BCHK (R162). -/
def bchkBody (t : Tid) (rs1 rs2 : Reg) (mask : BitVec 10) (s : State) : Act :=
  let th := s.thr t
  let c := th.reg rs1
  match bchkReason c (th.count rs2) mask with
  | some r => .raise s { cause := 0x11, detail := r, fa := c.cursor }
  | none => .done s

/-- BCHK (R162). -/
def execBchk (t : Tid) (rs1 rs2 : Reg) (mask : BitVec 10) (s : State) : Result State :=
  .next (issue s t { srcs := [rs1, rs2] } (bchkBody t rs1 rs2 mask))

end Sys2Proof.Machine
end

