-- ==== Sys2Proof/Machine/Branch.lean ====
section
/-! DEFINITION. Branches, jumps, calls, returns and the return stack (R75 to R79, R97, R103, R104). -/

namespace Sys2Proof.Machine

/-- PCC moved to a PC-relative target; the tag is kept only within reach (R103). -/
def State.jumpRel (s : State) (t : Tid) (k : Int) : State := s.modThr t (fun th => th.advance k)

/-- BZ and BNZ (R85, R103). -/
def branchBody (onZero : Bool) (t : Tid) (rt : Reg) (off : BitVec 20) (s : State) : Act :=
  if decide (((s.thr t).reg rt).bits = 0) = onZero then .jump (s.jumpRel t (off20 off)) else .done s

/-- The return capability of a call (R75). -/
def returnCap (pcc : Cap) : Cap :=
  ((pcc.moveCursor (pcc.ea 4)).dropGl).setSeal 0xFFE

/-- What stops a push at depth 16: PLATE_ILLEGAL inside a plate, RSTACK in trap mode (R77, R191). -/
def pushFault (th : Thread) : Option Exc :=
  if th.rstack.length < 16 then none
  else if th.plate.pdepth ≠ 0 then some { cause := 0x1A }
  else if th.rsMode then some { cause := 0x12, detail := 0 }
  else none

/-- The registers with a parity error after a push: the entry that it writes, number n, is good; in wrap mode every entry moves down by one (R22,
R64, R77). -/
def pushParity (depth : Nat) (parity : List Nat) : List Nat :=
  if depth < 16 then parity.filter (fun p => decide (p ≠ 33 + depth))
  else (parity.filter (fun p => decide (p ≠ 33))).map (fun p => if 33 < p then p - 1 else p)

/-- Pushes an entry; in wrap mode the oldest of 16 is lost (R77). -/
def Thread.push (th : Thread) (c : Cap) (lv : Level) : Thread :=
  { th with rstack := ({ cap := c, world := th.world, level := lv } :: th.rstack).take 16, parity := pushParity th.rstack.length th.parity }

/-- What stops a pop: the entry belongs to the code outside the plate, or an empty stack in trap mode (R77, R191). -/
def popFault (th : Thread) : Option Exc :=
  if th.plate.pdepth ≠ 0 ∧ th.rstack.length ≤ th.plate.rsDepth then some { cause := 0x1A }
  else if th.rstack.isEmpty && th.rsMode then some { cause := 0x12, detail := 1 }
  else none

/-- A parity error in the top return-stack entry n, register 33 + n (R22, R64). -/
def topParity (th : Thread) : Option Nat :=
  if !th.rstack.isEmpty && th.parity.contains (32 + th.rstack.length) then some (32 + th.rstack.length) else none

/-- The end of an instruction that reads an entry with a parity error (R64). -/
def parityAct (s : State) (t : Tid) (reg : Nat) : Act :=
  .ue (s.event 0x0304 1 t.toNat [(2, t.toNat), (1, reg)]) false { cause := 0x18, detail := 1 }

/-- BZ (R103). -/
def execBz (t : Tid) (rt : Reg) (off : BitVec 20) (s : State) : Result State :=
  .next (issue s t { srcs := [rt] } (branchBody true t rt off))
/-- BNZ (R103). -/
def execBnz (t : Tid) (rt : Reg) (off : BitVec 20) (s : State) : Result State :=
  .next (issue s t { srcs := [rt] } (branchBody false t rt off))
/-- J (R103). -/
def execJ (t : Tid) (off : BitVec 20) (s : State) : Result State := .next (issue s t {} (fun s => .jump (s.jumpRel t (off20 off))))

/-- The body of CALL (R75, R77, R103). -/
def callBody (t : Tid) (off : BitVec 20) (s : State) : Act :=
  let th := s.thr t
  match pushFault th with
  | some e => .raise s e
  | none => .jump ((s.modThr t (fun th => th.push (returnCap th.pcc) th.level)).jumpRel t (off20 off))
/-- CALL (R103). -/
def execCall (t : Tid) (off : BitVec 20) (s : State) : Result State := .next (issue s t {} (callBody t off))

/-- The body of JR (R97, R104). -/
def jrBody (t : Tid) (rs1 : Reg) (s : State) : Act :=
  let c := (s.thr t).reg rs1
  match jumpCheck c rs1.toNat with
  | some e => .raise s e
  | none => .jump (s.modThr t (fun th => { th with pcc := c }))
/-- JR (R104). -/
def execJr (t : Tid) (rs1 : Reg) (s : State) : Result State := .next (issue s t { srcs := [rs1] } (jrBody t rs1))

/-- The body of CALLR: the checks of R97 before the push (R104). -/
def callrBody (t : Tid) (rs1 : Reg) (s : State) : Act :=
  let th := s.thr t
  let c := th.reg rs1
  match jumpCheck c rs1.toNat with
  | some e => .raise s e
  | none =>
    match pushFault th with
    | some e => .raise s e
    | none => .jump (s.modThr t (fun th => { th.push (returnCap th.pcc) th.level with pcc := c }))
/-- CALLR (R104). -/
def execCallr (t : Tid) (rs1 : Reg) (s : State) : Result State := .next (issue s t { srcs := [rs1] } (callrBody t rs1))

/-- The body of RET (R76, R77, R97): DETAIL 33 is the top entry. -/
def retBody (t : Tid) (s : State) : Act :=
  let th := s.thr t
  match popFault th with
  | some e => .raise s e
  | none =>
    match topParity th, th.rstack with
    | some r, _ => parityAct s t r
    | none, [] => .raise s { cause := 0x03, detail := 33 }
    | none, x :: r =>
      if !x.cap.tag then .raise s { cause := 0x03, detail := 33, fa := x.cap.cursor }
      else if x.cap.seal ≠ 0xFFE then .raise s { cause := 0x06, detail := 33, fa := x.cap.cursor }
      else if x.world ≠ th.world ∨ x.level ≠ th.level then .raise s { cause := 0x02 }
      else
        let c := x.cap.setSeal 0
        match jumpCheck c 33 with
        | some e => .raise s e
        | none => .jump (s.modThr t (fun th => { th with pcc := c, rstack := r }))
/-- RET (R104). -/
def execRet (t : Tid) (s : State) : Result State := .next (issue s t {} (retBody t))

/-- The body of RSPOP (R77, R78). -/
def rspopBody (t : Tid) (rd : Reg) (s : State) : Act :=
  let th := s.thr t
  match popFault th with
  | some e => .raise s e
  | none =>
    match topParity th, th.rstack with
    | some r, _ => parityAct s t r
    | none, [] => .done (s.modThr t (fun th => th.setReg rd Cap.null))
    | none, x :: r =>
      if x.world ≠ th.world ∨ (x.level = .supervisor ∧ th.level = .user) then .raise s { cause := 0x02 }
      else .done (s.modThr t (fun th => { th.setReg rd x.cap with rstack := r }))
/-- RSPOP (R78, R104). -/
def execRspop (t : Tid) (rd : Reg) (s : State) : Result State := .next (issue s t { dests := [rd] } (rspopBody t rd))

/-- The body of RSPUSH (R77, R78). -/
def rspushBody (t : Tid) (rs1 : Reg) (lv : Level) (s : State) : Act :=
  let th := s.thr t
  let c := th.reg rs1
  if !c.tag then .raise s { cause := 0x03, detail := rs1.toNat, fa := c.cursor }
  else if c.seal ≠ 0xFFE then .raise s { cause := 0x06, detail := rs1.toNat, fa := c.cursor }
  else if lv = .supervisor ∧ th.level = .user then .raise s { cause := 0x02 }
  else
    match pushFault th with
    | some e => .raise s e
    | none => .done (s.modThr t (fun th => th.push c lv))
/-- RSPUSH (R78, R104). -/
def execRspush (t : Tid) (rs1 : Reg) (lv : Level) (s : State) : Result State := .next (issue s t { srcs := [rs1] } (rspushBody t rs1 lv))

end Sys2Proof.Machine
end

