-- ==== Sys2Proof/Machine/Capability.lean ====
section
/-! DEFINITION. Capability derivation, sealing, painting and inspection (R46, R47, R57, R105 to R109). -/

namespace Sys2Proof.Machine

/-- An exception whose capability is in register r: DETAIL names it, the fault address is its cursor (R278). -/
def capExc (cause : Nat) (r : Reg) (c : Cap) : Exc := { cause := cause, detail := r.toNat, fa := c.cursor }

/-- A derivation: the result capability, or the exception (R47). -/
abbrev Derive := Except Exc Cap

/-- CPOINT and CSTEP to address a: an untagged source gives an untagged result (R40, R46, R47). -/
def derivePoint (r : Reg) (c : Cap) (a : Nat) : Derive :=
  if c.tag && decide (c.seal ≠ 0) then .error (capExc 0x06 r c) else .ok (c.moveCursor a)

/-- Tagged, then unsealed (R47). -/
def usable (r : Reg) (c : Cap) : Option Exc :=
  if !c.tag then some (capExc 0x03 r c) else if c.seal ≠ 0 then some (capExc 0x06 r c) else none

/-- cnarrow of R106. -/
def deriveNarrow (exact : Bool) (r : Reg) (c : Cap) (n : Nat) : Derive :=
  match usable r c with
  | some e => .error e
  | none =>
    let b := c.cursor
    if b + n > vaSpace then .error (capExc 0x04 r c)
    else
      let f := fit b n
      if exact ∧ (f.lo ≠ b ∨ f.hi ≠ b + n) then .error (capExc 0x04 r c)
      else if f.lo < c.base ∨ f.hi > c.top then .error (capExc 0x04 r c)
      else .ok (c.withFit f)

/-- CDROP (R46). -/
def deriveDrop (r : Reg) (c : Cap) (mask : BitVec 14) : Derive :=
  match usable r c with
  | some e => .error e
  | none => .ok (c.setRights (c.rights &&& mask))

/-- CTINT (R46). -/
def deriveTint (r : Reg) (c : Cap) (colour : Nat) : Derive :=
  match usable r c with
  | some e => .error e
  | none => if !c.has .clr then .error (capExc 0x05 r c) else .ok (c.setColour colour)

/-- cwrap of R108. -/
def deriveWrap (r1 r2 : Reg) (c a : Cap) : Derive :=
  let t := a.cursor
  if !c.tag then .error (capExc 0x03 r1 c)
  else if !a.tag then .error (capExc 0x03 r2 a)
  else if c.seal ≠ 0 then .error (capExc 0x06 r1 c)
  else if a.seal ≠ 0 then .error (capExc 0x06 r2 a)
  else if t = 0xFFE ∨ t = 0xFFF then .error (capExc 0x05 r2 a)
  else if !a.has .seal then .error (capExc 0x05 r2 a)
  else if t = 0xFFD ∧ !a.has .sys then .error (capExc 0x05 r2 a)
  else if t = 0 ∨ t > 0xFFD ∨ t < a.base ∨ a.top ≤ t then .error (capExc 0x04 r2 a)
  else .ok (c.setSeal t)

/-- cunwrap of R108. -/
def deriveUnwrap (r1 r2 : Reg) (c a : Cap) : Derive :=
  let k := c.seal
  if !c.tag then .error (capExc 0x03 r1 c)
  else if !a.tag then .error (capExc 0x03 r2 a)
  else if k = 0 then .error (capExc 0x06 r1 c)
  else if a.seal ≠ 0 then .error (capExc 0x06 r2 a)
  else if k ≥ 0xFFD then .error (capExc 0x05 r1 c)
  else if !a.has .unsl then .error (capExc 0x05 r2 a)
  else if a.cursor ≠ k ∨ k < a.base ∨ a.top ≤ k then .error (capExc 0x04 r2 a)
  else
    let u := c.setSeal 0
    .ok (if a.has .gl then u else u.dropGl)

/-- The body of a derivation: rd, or the exception with nothing changed (R16, R46). -/
def deriveBody (f : Thread → Derive) (t : Tid) (rd : Reg) (s : State) : Act :=
  match f (s.thr t) with
  | .error e => .raise s e
  | .ok c => .done (s.modThr t (fun th => th.setReg rd c))

/-- A derivation over one source register. -/
def derive1 (f : Thread → Derive) (t : Tid) (rd rs1 : Reg) (s : State) : Result State :=
  .next (issue s t { srcs := [rs1], dests := [rd] } (deriveBody f t rd))
/-- A derivation over two source registers. -/
def derive2 (f : Thread → Derive) (t : Tid) (rd rs1 rs2 : Reg) (s : State) : Result State :=
  .next (issue s t { srcs := [rs1, rs2], dests := [rd] } (deriveBody f t rd))

/-- CCOPY (R46). -/
def execCcopy (t : Tid) (rd rs1 : Reg) (s : State) : Result State := derive1 (fun th => .ok (th.reg rs1)) t rd rs1 s
/-- CPOINT (R46, R105). -/
def execCpoint (t : Tid) (rd rs1 rs2 : Reg) (s : State) : Result State :=
  derive2 (fun th => derivePoint rs1 (th.reg rs1) (bitsOf (th.reg rs2).low 0 54)) t rd rs1 rs2 s
/-- CSTEP (R46, R105). -/
def execCstep (t : Tid) (rd rs1 rs2 : Reg) (s : State) : Result State :=
  derive2 (fun th => derivePoint rs1 (th.reg rs1) ((th.reg rs1).ea (th.reg rs2).low.toInt)) t rd rs1 rs2 s
/-- CSTEPI (R109). -/
def execCstepi (t : Tid) (rd rs1 : Reg) (imm : BitVec 14) (s : State) : Result State :=
  derive1 (fun th => derivePoint rs1 (th.reg rs1) ((th.reg rs1).ea imm.toInt)) t rd rs1 s
/-- CNARROW (R106). -/
def execCnarrow (t : Tid) (rd rs1 rs2 : Reg) (s : State) : Result State :=
  derive2 (fun th => deriveNarrow false rs1 (th.reg rs1) (th.reg rs2).low.toNat) t rd rs1 rs2 s
/-- CNARROW.X (R106). -/
def execCnarrowX (t : Tid) (rd rs1 rs2 : Reg) (s : State) : Result State :=
  derive2 (fun th => deriveNarrow true rs1 (th.reg rs1) (th.reg rs2).low.toNat) t rd rs1 rs2 s
/-- CDROP (R46, R105). -/
def execCdrop (t : Tid) (rd rs1 rs2 : Reg) (s : State) : Result State :=
  derive2 (fun th => deriveDrop rs1 (th.reg rs1) ((th.reg rs2).low.setWidth 14)) t rd rs1 rs2 s
/-- CDROPI (R109). -/
def execCdropi (t : Tid) (rd rs1 : Reg) (imm : BitVec 14) (s : State) : Result State :=
  derive1 (fun th => deriveDrop rs1 (th.reg rs1) imm) t rd rs1 s
/-- CTINT (R46, R105). -/
def execCtint (t : Tid) (rd rs1 rs2 : Reg) (s : State) : Result State :=
  derive2 (fun th => deriveTint rs1 (th.reg rs1) (bitsOf (th.reg rs2).low 0 4)) t rd rs1 rs2 s
/-- CWRAP (R108). -/
def execCwrap (t : Tid) (rd rs1 rs2 : Reg) (s : State) : Result State :=
  derive2 (fun th => deriveWrap rs1 rs2 (th.reg rs1) (th.reg rs2)) t rd rs1 rs2 s
/-- CUNWRAP (R108). -/
def execCunwrap (t : Tid) (rd rs1 rs2 : Reg) (s : State) : Result State :=
  derive2 (fun th => deriveUnwrap rs1 rs2 (th.reg rs1) (th.reg rs2)) t rd rs1 rs2 s

/-- The body of an inspect instruction (R105). -/
def inspectBody (f : Cap → Word) (t : Tid) (rd rs1 : Reg) (s : State) : Act :=
  .done (s.modThr t (fun th => th.wrInt rd (f (th.reg rs1))))
/-- An inspect instruction (R105). -/
def inspect (f : Cap → Word) (t : Tid) (rd rs1 : Reg) (s : State) : Result State :=
  .next (issue s t { srcs := [rs1], dests := [rd] } (inspectBody f t rd rs1))

/-- CFITLEN (R107). -/
def execCfitlen (t : Tid) (rd rs1 : Reg) (s : State) : Result State := inspect (fun c => BitVec.ofNat 64 (fitLen c.low.toNat)) t rd rs1 s
/-- CFITMASK (R107). -/
def execCfitmask (t : Tid) (rd rs1 : Reg) (s : State) : Result State := inspect (fun c => fitMask c.low.toNat) t rd rs1 s
/-- CRDBASE (R105). -/
def execCrdbase (t : Tid) (rd rs1 : Reg) (s : State) : Result State := inspect (fun c => BitVec.ofNat 64 c.base) t rd rs1 s
/-- CRDLEN (R105). -/
def execCrdlen (t : Tid) (rd rs1 : Reg) (s : State) : Result State := inspect (fun c => BitVec.ofNat 64 c.length) t rd rs1 s
/-- CRDRT (R105). -/
def execCrdrt (t : Tid) (rd rs1 : Reg) (s : State) : Result State := inspect (fun c => c.rights.setWidth 64) t rd rs1 s
/-- CRDCLR (R105). -/
def execCrdclr (t : Tid) (rd rs1 : Reg) (s : State) : Result State := inspect (fun c => c.colour.setWidth 64) t rd rs1 s
/-- CRDSEAL (R105). -/
def execCrdseal (t : Tid) (rd rs1 : Reg) (s : State) : Result State := inspect (fun c => BitVec.ofNat 64 c.seal) t rd rs1 s
/-- CRDTAG (R105). -/
def execCrdtag (t : Tid) (rd rs1 : Reg) (s : State) : Result State := inspect (fun c => flagWord c.tag) t rd rs1 s
/-- CRDCUR (R105). -/
def execCrdcur (t : Tid) (rd rs1 : Reg) (s : State) : Result State := inspect (fun c => BitVec.ofNat 64 c.cursor) t rd rs1 s

/-- The granules that CPAINT (16) or CPAINT.L (64) paints, from checked segments. -/
def paintWrites (segs : List Seg) (k : BitVec 4) : List GWrite := segs.map (fun x => .paint (x.pa / 16) k)

/-- CPAINT.L takes a Normal line out of error: at once outside a plate, at its publishing inside one (R58). -/
def clearError (s : State) (t : Tid) (size : Nat) (segs : List Seg) : State :=
  if size ≠ 64 then s
  else
    match segs with
    | x :: _ =>
      if (s.plate t).pdepth = 0 then s
      else if s.inError (x.pa / 64) then
        s.modThr t (fun th => { th with plate := { th.plate with cleared := insertNat (x.pa / 64) th.plate.cleared } })
      else s
    | [] => s

/-- cpaint of R57. -/
def paintBody (size : Nat) (t : Tid) (rs1 rs2 : Reg) (s : State) : Act :=
  let th := s.thr t
  let k : BitVec 4 := (th.reg rs2).low.setWidth 4
  match s.check t (paintReq (th.reg rs1) rs1 size) with
  | (s, .ok segs) =>
    let dram := segs.filter (fun x => s.isDram x.pa)
    let s := (segs.filter (fun x => !s.isDram x.pa)).foldl (fun s x => s.reservedEvent (.tile t) x.pa) s
    (s.holdStore t dram).getD (storeEnd none ((clearError s t size dram).storeDram t (paintWrites dram k)))
  | (s, .part segs e) =>
    let dram := segs.filter (fun x => s.isDram x.pa)
    (s.holdStore t dram).getD (storeEnd (some e) (s.storeDram t (paintWrites dram k)))
  | (s, r) => r.refusal s false

/-- CPAINT (R57). -/
def execCpaint (t : Tid) (rs1 rs2 : Reg) (s : State) : Result State := .next (issue s t { srcs := [rs1, rs2] } (paintBody 16 t rs1 rs2))
/-- CPAINT.L (R57). -/
def execCpaintL (t : Tid) (rs1 rs2 : Reg) (s : State) : Result State := .next (issue s t { srcs := [rs1, rs2] } (paintBody 64 t rs1 rs2))

end Sys2Proof.Machine
end

