-- ==== Sys2Proof/Machine/System.lean ====
section
/-! DEFINITION. Fences, SYNC, system instructions, thread start and exit, broadcast invalidation and control registers
(R86 to R93, R115 to R121, R173, R250 to R263, R271 to R274, R283, R284). -/

namespace Sys2Proof.Machine

/-- The thread is inside a plate (R191). -/
def State.inPlate (s : State) (t : Tid) : Bool := decide ((s.plate t).pdepth ≠ 0)

/-- PLATE_ILLEGAL (R278). -/
def plateIllegal : Exc := { cause := 0x1A }

/-- The body of FENCE (R115, R173): inside a plate every access completes at once (R173, R176). -/
def fenceBody (t : Tid) (mask : BitVec 4) (s : State) : Act :=
  if !s.inPlate t && (s.thr t).fenceHolds mask then .wait s (.fence mask) else .done s
/-- FENCE (R115). -/
def execFence (t : Tid) (mask : BitVec 4) (s : State) : Result State :=
  .next (issue s t { illegal := decide (mask.toNat / 4 = 0) || decide (mask.toNat % 4 = 0) } (fenceBody t mask))

/-- The body of SYNC (R92). -/
def syncBody (t : Tid) (s : State) : Act :=
  if (s.thr t).outs.isEmpty then .done (s.modThr t Thread.applySync) else .wait s .sync
/-- SYNC (R92). -/
def execSync (t : Tid) (s : State) : Result State := .next (issue s t {} (syncBody t))

/-- The body of SYNC.I (R115, R116, R191). -/
def syncIBody (t : Tid) (s : State) : Act :=
  if s.inPlate t then .raise s plateIllegal
  else if !(s.thr t).storesOut then .done (s.dropFetched t) else .wait s .syncI
/-- SYNC.I (R115). -/
def execSyncI (t : Tid) (s : State) : Result State := .next (issue s t {} (syncIBody t))

/-- An exception whose frame holds the next instruction; inside a plate the frame holds the abort target (R279). -/
def raiseAfter (s : State) (t : Tid) (cause : Nat) : Act :=
  if s.inPlate t then .raise s { cause := cause } else .raise (s.modThr t (fun th => th.advance 4)) { cause := cause }
/-- SYSC (R118, R279). -/
def execSysc (t : Tid) (s : State) : Result State := .next (issue s t {} (fun s => raiseAfter s t 0x15))

/-- The body of BRK (R118, R413): a claimed BRK stops the thread, and aborts its plate with INTERRUPT. -/
def brkBody (t : Tid) (s : State) : Act :=
  if (s.thr t).brkClaim then
    if s.inPlate t then .again ((s.abortPlate t .interrupt).modThr t (fun th => { th with st := .stopped, stepping := false, stopReq := false }))
    else .again (s.modThr t (fun th => { th.advance 4 with st := .stopped, stepping := false, stopReq := false }))
  else raiseAfter s t 0x19
/-- BRK (R118). -/
def execBrk (t : Tid) (s : State) : Result State := .next (issue s t {} (brkBody t))

/-- The world on the other side of a world call. -/
def otherWorld : World → World
  | .main => .vault
  | .vault => .main

/-- wcall of R284. -/
def wcallBody (t : Tid) (rs1 : Reg) (s : State) : Act :=
  let th := s.thr t
  let c := th.reg rs1
  if s.inPlate t then .raise s plateIllegal
  else if !c.tag then .raise s { cause := 0x03, detail := rs1.toNat, fa := c.cursor }
  else if c.seal ≠ 0xFFD then .raise s { cause := 0x06, detail := rs1.toNat, fa := c.cursor }
  else if !c.has .ex then .raise s { cause := 0x05, detail := rs1.toNat, fa := c.cursor }
  else if c.cursor % 4 ≠ 0 then .raise s { cause := 0x08, detail := rs1.toNat, fa := c.cursor }
  else
    let dw := otherWorld th.world
    let dl : Level := if c.has .sys then .supervisor else .user
    match s.translateAs t dw dl c.cursor ⟨false, false, true⟩ false with
    | (s, .exc _ _) => .raise s { cause := 0x16, detail := 1, fa := c.cursor }
    | (s, .wait) => .hold s (.heldLine false)
    | (s, .lost) => .abort s .evicted
    | (s, .ok x) =>
      if x.world ≠ dw then .raise s { cause := 0x16, detail := 2, fa := c.cursor }
      else .jump (s.modThr t (fun th =>
        { th with world := dw, level := dl, pcc := c.setSeal 0, tstk := Cap.null, testk := Cap.null }))
/-- WCALL (R284). -/
def execWcall (t : Tid) (rs1 : Reg) (s : State) : Result State := .next (issue s t { srcs := [rs1] } (wcallBody t rs1))

/-- The frame loads of ERET (R283): the checks of R48 for each granule, in order. -/
def frameChecks (s : State) (t : Tid) (c : Cap) : Nat → Nat → State × Chk
  | 0, _ => (s, .ok [])
  | k + 1, i =>
    match s.check t (loadReq c 1 (c.ea (16 * i)) 16 16) with
    | (s, .ok a) =>
      match frameChecks s t c k (i + 1) with
      | (s, .ok b) => (s, .ok (a ++ b))
      | x => x
    | x => x

/-- The values of checked frame granules, with their tags (R283). -/
def frameValues (s : State) (t : Tid) (ldc : Bool) : List Seg → State × List Cap
  | [] => (s, [])
  | x :: r =>
    let tag := ldc && loadTag s t s.fresh [(x.pa, x.len)]
    let (s, v) := if allCached s [x] then ((touchLines s t [x.pa / 64]).1.conflict (some t) (x.pa / 64) false, s.viewSegs t s.fresh [(x.pa, x.len)])
      else s.loadDevice t [(x.pa, x.len)]
    let (s, l) := frameValues s t ldc r
    (s, ⟨BitVec.ofNat 128 v, tag⟩ :: l)

/-- The restore of ERET, as one event (R283). -/
def Thread.restore (th : Thread) (f : List Cap) : Thread :=
  let g (i : Nat) : Cap := (f[i]?).getD Cap.null
  let st := (g 0).cursor
  let th := (((th.setReg 31 (g 4)).setReg 1 (g 5)).setReg 2 (g 6)).setReg 3 (g 7)
  { th with pcc := g 1, parity := th.parity.filter (fun p => decide (p ≠ 32)), pkeys := (g 3).bits, level := if st % 4 = 1 then .supervisor else .user, ipl := BitVec.ofNat 4 (st / 16) }

/-- eret of R283. -/
def eretBody (t : Tid) (s : State) : Act :=
  let th := s.thr t
  let c := th.reg 1
  if s.inPlate t then .raise s plateIllegal
  else
    match frameChecks s t c 8 0 with
    | (s, .ok segs) =>
      let (s, f) := frameValues s t (c.has .ldc) segs
      let st := (f[0]?).getD Cap.null
      let bad (cause : Nat) : Act :=
        .raise (s.event 0x0A01 1 t.toNat [(2, t.toNat), (1, cause), (8, c.cursor)]) { cause := cause, fa := c.cursor }
      if !st.tag ∨ st.seal ≠ 0xFFF then bad 0x13
      else if st.cursor % 4 > 1 ∨ (decide (st.cursor / 4 % 2 = 1)) ≠ (decide (th.world = .vault)) then bad 0x14
      else .jump (s.modThr t (fun th => th.restore f))
    | (s, r) => r.refusal s false
/-- ERET (R283). -/
def execEret (t : Tid) (s : State) : Result State :=
  .next (issue s t { supervisor := true, srcs := [1], dests := [1, 2, 3, 31] } (eretBody t))

/-- tstart of R119 up to the request: the caller then waits for the target tile's answer. -/
def tstartBody (t : Tid) (rd rs1 rs2 : Reg) (s : State) : Act :=
  let th := s.thr t
  let c := th.reg rs1
  let w := (th.reg rd).low
  let lv : Level := if w.getLsbD 9 then .supervisor else .user
  if s.inPlate t then .raise s plateIllegal
  else
    match jumpCheck c rs1.toNat with
    | some e => .raise s e
    | none => .wait s (.tstart rd (w.setWidth 9) lv c (th.reg rs2))
/-- TSTART (R119). -/
def execTstart (t : Tid) (rd rs1 rs2 : Reg) (s : State) : Result State :=
  .next (issue s t { supervisor := true, srcs := [rd, rs1, rs2], dests := [rd] } (tstartBody t rd rs1 rs2))

/-- The thread that TSTART starts (R119, R253, R274). -/
def startedThread (old caller : Thread) (lv : Level) (entry arg : Cap) : Thread :=
  let th := { old.emptied with st := .ready, pcc := entry, world := caller.world, level := lv, tgrp := caller.tgrp, rsMode := caller.rsMode,
                               trootM := caller.trootM, trootV := caller.trootV, pklock := caller.pklock }
  let th := th.setReg 1 arg
  match caller.world with
  | .main => { th with evecM := caller.evecM, stkM := caller.tstk, estkM := caller.testk }
  | .vault => { th with evecV := caller.evecV, stkV := caller.tstk, estkV := caller.testk }

/-- TSTART_ANSWER: the target tile accepts or refuses (R119, R380). A tile in the plan that is not awake wakes first, and the caller goes on
waiting. -/
def execTstartAnswer (caller : Tid) (s : State) : Result State :=
  let th := s.thr caller
  match th.st with
  | .waiting (.tstart rd target lv entry arg) =>
    let n := tileOf target
    if !(s.rget .planTiles).getLsbD n then .next ((s.modThr caller (fun th => th.wrInt rd 2)).complete caller)
    else if (s.thr target).st ≠ .empty then .next ((s.modThr caller (fun th => th.wrInt rd 1)).complete caller)
    else if s.power n ≠ .active then .next (s.setPower n .waking)
    else
      let s := s.setThr target (startedThread (s.thr target) th lv entry arg)
      .next ((s.modThr caller (fun th => { th.wrInt rd 0 with tstk := Cap.null, testk := Cap.null })).complete caller)
  | _ => .next s

/-- The body of TEXIT (R120, R191). -/
def texitBody (t : Tid) (s : State) : Act :=
  if s.inPlate t then .raise s plateIllegal
  else if (s.thr t).outs.isEmpty then .jump (endClaims (s.modThr t Thread.emptied) t) else .wait s .texit
/-- TEXIT (R120). -/
def execTexit (t : Tid) (s : State) : Result State := .next (issue s t {} (texitBody t))

/-- The body of INVAL.V (R259, R260): PLATE_ILLEGAL, then the WORLD test. -/
def invalBody (t : Tid) (rs1 : Reg) (s : State) : Act :=
  let th := s.thr t
  let op := (th.reg rs1).low
  if s.inPlate t then .raise s plateIllegal
  else if op.getLsbD 1 && decide (th.world = .main) then .raise s { cause := 0x02 }
  else if !th.storesOut then .again (s.startInval t op) else .wait s (.invalStores op)
/-- INVAL.V (R118, R259). -/
def execInvalV (t : Tid) (rs1 : Reg) (s : State) : Result State :=
  .next (issue s t { supervisor := true, srcs := [rs1] } (invalBody t rs1))

/-- Accesses of tile n's threads issued before `stamp` are still outstanding (R260). -/
def tileBusy (s : State) (n stamp : Nat) : Bool :=
  s.threads.any (fun p => decide (p.1 / 8 = n) &&
    (p.2.outs.any (fun o => decide (o.stamp < stamp) && !o.kind.isLong) || p.2.stores.any (fun o => decide (o.stamp < stamp))))

/-- Tile n removes its matching entries for a broadcast, once; what it has translated so far carries an earlier stamp (R260 steps 1 and 3). -/
def Inval.remove (i : Inval) (s : State) (n : Nat) : State × Inval :=
  if i.gone.any (fun g => decide (g.1 = n)) then (s, i)
  else (s.setTile n { s.tile n with tlb := (s.tile n).tlb.filter (fun x => !invalMatches i.operand x) }, { i with gone := i.gone ++ [(n, s.fresh + 1)] })

/-- The stamp before which tile n's accesses must complete. -/
def Inval.bound (i : Inval) (n : Nat) : Nat := Map.get 0 i.gone n

/-- A broadcast after an answer: with the last one the INVAL.V completes (R260). -/
def State.keepInval (s : State) (t : Tid) (i : Inval) : State :=
  let others := s.invals.filter (fun x => decide (x.tid ≠ t))
  if i.tiles.isEmpty && i.clusters.isEmpty then
    let s := { s with invals := others }
    if (s.thr t).st = .waiting .inval then s.complete t else s
  else { s with invals := others ++ [i] }

/-- INVAL_V_ACKNOWLEDGE: a tile or a cluster removes the matching entries and acknowledges (R260). A tile that has accesses outstanding which it
translated before the removal does not acknowledge yet. -/
def execInvalVAcknowledge (t : Tid) (who : InvTarget) (s : State) : Result State :=
  match s.invals.find? (fun x => decide (x.tid = t)) with
  | none => .next s
  | some i =>
    match who with
    | .tile n =>
      if !i.tiles.contains n then .next s
      else
        let (s, i) := i.remove s n
        .next (s.keepInval t (if tileBusy s n (i.bound n) then i else { i with tiles := i.tiles.filter (fun x => decide (x ≠ n)) }))
    | .cluster n =>
      let s := { s with ctlb := Map.set s.ctlb n ((Map.get [] s.ctlb n).filter (fun x => !invalMatches i.operand x)) }
      .next (s.keepInval t { i with clusters := i.clusters.filter (fun x => decide (x ≠ n)) })

/-! ### Control registers -/

/-- Who may read or write a control register (R87, R250, R271). -/
inductive CrLevel where
  | any | supervisor | vs
  deriving DecidableEq, Repr

/-- The control registers (R87, R250, R271). -/
inductive Cr where
  | tid | tstat | tgrp | rscfg | mctl | pkeys | cycles | issued | parkcyc | timenow
  | evecM | stkM | estkM | evecV | stkV | estkV | tstk | testk | ipl | excnt | intcnt
  | trootM | trootV | pklock | tlbmiss | walks
  deriving DecidableEq, Repr

/-- The control register of a number; any other number raises ILLEGAL_OP (R86). -/
def crOf (n : BitVec 14) : Option Cr :=
  match n.toNat with
  | 0x000 => some .tid | 0x001 => some .tstat | 0x002 => some .tgrp | 0x003 => some .rscfg | 0x010 => some .mctl
  | 0x011 => some .pkeys | 0x020 => some .cycles | 0x021 => some .issued | 0x022 => some .parkcyc | 0x023 => some .timenow
  | 0x100 => some .evecM | 0x101 => some .stkM | 0x102 => some .estkM | 0x104 => some .evecV | 0x105 => some .stkV
  | 0x106 => some .estkV | 0x108 => some .tstk | 0x109 => some .testk | 0x110 => some .ipl | 0x111 => some .excnt
  | 0x112 => some .intcnt | 0x180 => some .trootM | 0x181 => some .trootV | 0x182 => some .pklock | 0x188 => some .tlbmiss
  | 0x189 => some .walks
  | _ => none

/-- "Read at" (R87, R250, R271). -/
def Cr.readAt : Cr → CrLevel
  | .evecM | .stkM | .estkM | .tstk | .testk | .trootM => .supervisor
  | .evecV | .stkV | .estkV | .trootV => .vs
  | _ => .any

/-- "Write at"; none for an RO register, whose CRW raises ILLEGAL_OP (R87, R250, R271). -/
def Cr.writeAt : Cr → Option CrLevel
  | .tgrp | .rscfg | .evecM | .stkM | .estkM | .tstk | .testk | .trootM | .ipl | .pklock => some .supervisor
  | .evecV | .stkV | .estkV | .trootV => some .vs
  | .mctl | .pkeys => some .any
  | _ => none

/-- A value as a register holds it after CRR: 64 bits, untagged (R86). -/
def crWord (n : Nat) : Cap := Cap.ofWord (BitVec.ofNat 64 n)

/-- What CRR reads (R86 to R91, R128, R250, R251, R271 to R273); an RWS register reads the value last written (R92). -/
def State.crRead (s : State) (t : Tid) (c : Cr) : Cap :=
  let th := s.thr t
  match c with
  | .tid => crWord (s.rfield .sdAddr 0 10 * 512 + t.toNat)
  | .tstat => crWord (th.plate.pdepth * 4 + (if th.world = .vault then 2 else 0) + (if th.level = .supervisor then 1 else 0))
  | .tgrp => crWord (th.tgrpP.getD th.tgrp).toNat
  | .rscfg =>
    let top := match th.rstack with
      | x :: _ => (if x.world = .vault then 2 ^ 17 else 0) + (if x.level = .supervisor then 2 ^ 16 else 0)
      | [] => 0
    crWord (top + th.rstack.length * 256 + (if th.rsModeP.getD th.rsMode then 1 else 0))
  | .mctl => Cap.ofWord th.mctl
  | .pkeys => Cap.ofQuad th.pkeys
  | .cycles => crWord (s.tile (tileOf t)).cycles
  | .issued => crWord th.issued
  | .parkcyc => crWord th.parkcyc
  | .timenow => crWord s.timeNow
  | .evecM => th.evecM
  | .stkM => th.stkM
  | .estkM => th.estkM
  | .evecV => th.evecV
  | .stkV => th.stkV
  | .estkV => th.estkV
  | .tstk => th.tstk
  | .testk => th.testk
  | .ipl => crWord (th.iplP.getD th.ipl).toNat
  | .excnt => crWord th.excnt
  | .intcnt => crWord th.intcnt
  | .trootM => Cap.ofWord (th.trootMP.getD th.trootM)
  | .trootV => Cap.ofWord (th.trootVP.getD th.trootV)
  | .pklock => Cap.ofWord (th.pklockP.getD th.pklock)
  | .tlbmiss => crWord th.tlbmiss
  | .walks => crWord th.walks

/-- The writable bits of TROOT (R251). -/
def trootMask : Word := 0x3FFFFFFFDFFF

/-- PKEYS after a CRW at user level: the fields whose PKLOCK bit is set keep their value (R256). -/
def mergeKeys (lock : Word) (old new : Quad) : Nat → Quad
  | 0 => new
  | k + 1 =>
    let r := mergeKeys lock old new k
    if lock.getLsbD k then withField r (2 * k) 2 (field old (2 * k) 2) else r

/-- What CRW writes (R86, R90 to R93, R128, R251, R256, R271 to R273). -/
def Thread.crWrite (th : Thread) (c : Cr) (v : Cap) : Thread :=
  match c with
  | .tgrp => { th with tgrpP := some (v.low.setWidth 4) }
  | .rscfg => { th with rsModeP := some (v.low.getLsbD 0) }
  | .mctl => { th with mctl := mctlWrite th.mctl v.low }
  | .pkeys => { th with pkeys := if th.level = .supervisor then v.bits else mergeKeys th.pklock th.pkeys v.bits 64 }
  | .evecM => { th with evecM := v }
  | .stkM => { th with stkM := v }
  | .estkM => { th with estkM := v }
  | .evecV => { th with evecV := v }
  | .stkV => { th with stkV := v }
  | .estkV => { th with estkV := v }
  | .tstk => { th with tstk := v }
  | .testk => { th with testk := v }
  | .ipl => { th with iplP := some (v.low.setWidth 4) }
  | .trootM => { th with trootMP := some (v.low &&& trootMask) }
  | .trootV => { th with trootVP := some (v.low &&& trootMask) }
  | .pklock => { th with pklockP := some v.low }
  | _ => th

/-- What CRR asks for before it executes (R41, R83, R86, R93). -/
def crrPre (rd : Reg) (cr : BitVec 14) : Pre :=
  { illegal := (crOf cr).isNone
    supervisor := match crOf cr with
      | some c => decide (c.readAt ≠ .any)
      | none => false
    vaultOnly := match crOf cr with
      | some c => decide (c.readAt = .vs)
      | none => false
    dests := [rd]
    mctl := decide (crOf cr = some .mctl) }

/-- The body of CRR (R121). -/
def crrBody (t : Tid) (rd : Reg) (cr : BitVec 14) (s : State) : Act :=
  match crOf cr with
  | some c => let v := s.crRead t c; .done (s.modThr t (fun th => th.setReg rd v))
  | none => .done s
/-- CRR (R121). -/
def execCrr (t : Tid) (rd : Reg) (cr : BitVec 14) (s : State) : Result State := .next (issue s t (crrPre rd cr) (crrBody t rd cr))

/-- What CRW asks for before it executes (R41, R83, R86, R87, R93). -/
def crwPre (cr : BitVec 14) (rs1 : Reg) : Pre :=
  let w := (crOf cr).bind Cr.writeAt
  { illegal := w.isNone, supervisor := decide (w = some .supervisor) || decide (w = some .vs), vaultOnly := decide (w = some .vs),
    srcs := [rs1], mctl := decide (crOf cr = some .mctl) }

/-- The body of CRW (R121); CRW of TGRP inside a plate raises PLATE_ILLEGAL (R191). -/
def crwBody (t : Tid) (cr : BitVec 14) (rs1 : Reg) (s : State) : Act :=
  match crOf cr with
  | some c =>
    if c = .tgrp ∧ s.inPlate t then .raise s plateIllegal
    else .done (s.modThr t (fun th => th.crWrite c (th.reg rs1)))
  | none => .done s
/-- CRW (R121). -/
def execCrw (t : Tid) (cr : BitVec 14) (rs1 : Reg) (s : State) : Result State := .next (issue s t (crwPre cr rs1) (crwBody t cr rs1))

end Sys2Proof.Machine
end

