-- ==== Sys2Proof/Machine/PlateInsn.lean ====
section
/-! DEFINITION. The plate instructions and the commit sequencer's steps (R185 to R192, R198, R207, R208, R213). -/

namespace Sys2Proof.Machine

/-- The body of PBEGIN and PBEGIN.DEFER (R187): inner, at once; outermost, once every earlier access is done. -/
def pbeginBody (t : Tid) (rd : Reg) (off : BitVec 14) (defer : Bool) (s : State) : Act :=
  let th := s.thr t
  if th.plate.pdepth = 7 then .abort s { cause := 5 }
  else if th.plate.pdepth ≠ 0 then
    .done (s.modThr t (fun th => { th.wrInt rd 0 with plate := { th.plate with pdepth := th.plate.pdepth + 1 } }))
  else if th.quiet then .jump (s.openPlate t rd off defer)
  else .wait s (.pbegin rd off defer)
/-- PBEGIN (R187). -/
def execPbegin (t : Tid) (rd : Reg) (off : BitVec 14) (s : State) : Result State :=
  .next (issue s t { dests := [rd] } (pbeginBody t rd off false))
/-- PBEGIN.DEFER (R187). -/
def execPbeginDefer (t : Tid) (rd : Reg) (off : BitVec 14) (s : State) : Result State :=
  .next (issue s t { dests := [rd] } (pbeginBody t rd off true))

/-- The body of PCOMMIT (R187): an outermost one enters COMMITTING, but for a plate that takes no CSN and has no load outstanding, whose commit
point is at once (R192), unless commits are stopped (R236). -/
def pcommitBody (t : Tid) (rd : Reg) (s : State) : Act :=
  let th := s.thr t
  if th.plate.pdepth = 0 then .raise s plateIllegal
  else if 1 < th.plate.pdepth then
    .done (s.modThr t (fun th => { th.wrInt rd 0 with plate := { th.plate with pdepth := th.plate.pdepth - 1 } }))
  else if !th.plate.takesCsn && !th.loadsOut && s.emptyCommits then .done (s.commitEmpty t rd)
  else .wait (s.modThr t (fun th => { th with plate := { th.plate with phase := .committing, commitRd := rd } })) .pcommit
/-- PCOMMIT (R187). -/
def execPcommit (t : Tid) (rd : Reg) (s : State) : Result State := .next (issue s t { dests := [rd] } (pcommitBody t rd))

/-- The body of PABORT (R187). -/
def pabortBody (t : Tid) (code : BitVec 8) (s : State) : Act :=
  if (s.plate t).pdepth = 0 then .raise s plateIllegal else .abort s { cause := 1, code := code.toNat }
/-- PABORT (R187). -/
def execPabort (t : Tid) (code : BitVec 8) (s : State) : Result State := .next (issue s t {} (pabortBody t code))

/-- The word that a selector of PSTAT names (R213). -/
def State.pstat (s : State) (t : Tid) (sel : BitVec 2) : Word :=
  let p := s.plate t
  match sel.toNat with
  | 0 => p.status p.pdepth
  | 1 => p.abortPc.setWidth 64
  | 2 => BitVec.ofNat 64 p.lastCsn
  | _ => s.rget .durableCsn
/-- The body of PSTAT (R213). -/
def pstatBody (t : Tid) (rd : Reg) (sel : BitVec 2) (s : State) : Act :=
  let v := s.pstat t sel
  .done (s.modThr t (fun th => th.wrInt rd v))
/-- PSTAT (R213). -/
def execPstat (t : Tid) (rd : Reg) (sel : BitVec 2) (s : State) : Result State := .next (issue s t { dests := [rd] } (pstatBody t rd sel))

/-- A commit request may be sent: the plate is COMMITTING, takes a CSN, its loads are done, and it is not queued yet (R187, R198). -/
def State.mayRequest (s : State) (t : Tid) : Bool :=
  let th := s.thr t
  decide (th.plate.phase = .committing) && th.plate.takesCsn && !th.loadsOut && !(s.etch.queue.any (fun r => decide (r.who = .thread t)))

/-- COMMIT_REQUEST: the request arrives at the sequencer (R198). -/
def execCommitRequest (t : Tid) (s : State) : Result State :=
  if s.mayRequest t then
    .next { s with etch := { s.etch with queue := s.etch.queue ++ [{ who := .thread t, journalled := s.isJournalled (s.plate t) }] } }
  else .next s

/-- COMMIT_POINT: the sequencer takes t's request, when it is the one that goes next (R198, R208). -/
def execCommitPoint (t : Tid) (s : State) : Result State :=
  if s.sequencerRuns && decide (nextRequest s false s.etch.queue = some (.thread t)) then .next (s.commitPoint t).after else .next s

/-- A request waits for journal space or behind one that does (R208). -/
def State.waitsForSpace (s : State) (t : Tid) : Bool :=
  s.etch.queue.any (fun r => decide (r.who = .thread t) && r.journalled) &&
    !(decide (((s.etch.queue.filter (·.journalled)).head?).map (·.who) = some (.thread t)) && s.recordFits (s.plate t).recordLen)

/-- JOURNAL_WAIT_EXPIRY: the plate aborts with JOURNAL_FULL, and event 0x0601 names the thread and TAIL_BYTES (R208, R245). A record that fits in
the last tick goes on to its commit point. -/
def execJournalWaitExpiry (t : Tid) (s : State) : Result State :=
  if s.waitsForSpace t && !s.pfail then
    let s := s.abortPlate t .journalFull
    let s := (s.setEtchBit 3 true).event 0x0601 4 0 [(2, t.toNat), (8, (s.rget .tailBytes).toNat)]
    .next (s.boundary t)
  else .next s

/-- DEFER_LIMIT_EXPIRY: a plate of PBEGIN.DEFER that is still LIVE or COMMITTING aborts with INTERRUPT while a vector is due (R207). -/
def execDeferLimitExpiry (t : Tid) (s : State) : Result State :=
  let p := s.plate t
  if p.abortable && p.defer && !(s.dueVectors t).isEmpty then .next ((s.abortPlate t .interrupt).boundary t) else .next s

end Sys2Proof.Machine
end

