-- ==== Sys2Proof/Machine/Interrupt.lean ====
section
/-! DEFINITION. Interrupt entry and the commands of the tile interrupt controllers (R280, R282, R287 to R290), and line repair (R238). -/

namespace Sys2Proof.Machine

/-- A wait that an interrupt or a debug stop abandons (R282). An outermost PBEGIN that waits has had no effect yet, so it is abandoned too. -/
def WaitWhy.abandoned : WaitWhy → Bool
  | .fence _ | .sync | .syncI | .pwait _ _ _ _ | .invalStores _ | .inval | .pbegin _ _ _ => true
  | _ => false

/-- Whether a boundary of the thread is at hand: READY or PARKED, in a wait that is abandoned, or COMMITTING (R207, R282). A thread whose held
line has just been published issues its access first (R181). -/
def Thread.interruptible (th : Thread) : Bool :=
  match th.st with
  | .ready => !th.resume
  | .parked (.heldLine block) => block
  | .parked _ => true
  | .waiting .interrupt => true
  | .waiting .pcommit => th.plate.abortable
  | .waiting w => w.abandoned
  | _ => false

/-- The thread's wait or parking ends without effect; entries that an INVAL.V has removed stay removed (R282). -/
def State.abandon (s : State) (t : Tid) : State :=
  let s := { s with invals := s.invals.filter (fun x => decide (x.tid ≠ t)) }
  s.modThr t (fun th => { th with st := .ready })

/-- Interrupt entry may begin (R74, R207, R282, R289): the plate's abort at its first cycle ends every outstanding result. -/
def State.mayEnter (s : State) (t : Tid) : Bool :=
  let th := s.thr t
  th.interruptible && s.tileRuns (tileOf t) && !th.stepping &&
    (if th.plate.pdepth = 0 then th.outs.isEmpty else th.plate.abortable && !th.plate.defer)

/-- An interrupt that is due abandons the thread's wait although outstanding results hold entry up (R74, R282): the thread waits for them, and pending
RWS writes stay pending. -/
def State.mustAbandon (s : State) (t : Tid) : Bool :=
  let th := s.thr t
  s.tileRuns (tileOf t) && !th.stepping && decide (th.plate.pdepth = 0) && !th.outs.isEmpty &&
    (match th.st with
      | .waiting w => w.abandoned
      | _ => false)

/-- A pending bit clears. -/
def State.clearPend (s : State) (n v : Nat) : State :=
  let x := s.tile n
  s.setTile n { x with pend := x.pend.filter (fun k => decide (k ≠ v)) }

/-- The vectors that are raised during an entry, each with its cycle: one of cycles 0 to 7 with a higher priority takes the entry over, and the
displaced vector is pending again (R290). Answers the vector that the entry delivers. -/
def takeovers (s : State) (t : Tid) (v : Nat) : List (Nat × Nat) → State × Nat
  | [] => (s, v)
  | (cycle, x) :: r =>
    let n := tileOf t
    let s := s.raiseVector n x
    if cycle < 8 ∧ s.isDue t x ∧ vcfgPrio (s.rget (.vcfg n v)) < vcfgPrio (s.rget (.vcfg n x)) then
      takeovers ((s.clearPend n x).raiseVector n v) t x r
    else takeovers s t v r

/-- INTERRUPT_ENTRY: the vector due next is delivered to thread t (R280, R289, R290). -/
def execInterruptEntry (t : Tid) (during : List (Nat × Nat)) (s : State) : Result State :=
  match s.dueVector t with
  | none => .next (s.settle t)
  | some v =>
    if s.mustAbandon t then .next ((s.abandon t).modThr t (fun th => { th with st := .waiting .interrupt }))
    else if !s.mayEnter t then .next s
    else
      let s := s.abortPlate t .interrupt
      let s := (s.abandon t).clearPend (tileOf t) v
      let (s, v) := takeovers s t v during
      .next ((s.enter t { cause := vectorWord v, fa := 0, prio := some (vcfgPrio (s.rget (.vcfg (tileOf t) v))) }).after)

/-- VECTOR_RAISE: a source's raise reaches a tile's controller (R288). -/
def execVectorRaise (tile vector : Nat) (s : State) : Result State := onPowered (fun s => s.raiseVector tile vector) s

/-- VCFG_WRITE (R288). -/
def execVcfgWrite (m : Master) (tile vector : Nat) (value : Word) (s : State) : Result State := writeCommand m (.vcfg tile vector) value s

/-- PEND_WRITE (R287). -/
def execPendWrite (m : Master) (tile k : Nat) (value : Word) (s : State) : Result State := writeCommand m (.pend tile k) value s

/-- SWSET_WRITE (R287). -/
def execSwsetWrite (m : Master) (tile : Nat) (value : Word) (s : State) : Result State := writeCommand m (.swset tile) value s

/-- LINE_REPAIR_COMPLETE (R238). -/
def execLineRepairComplete (line : Nat) (s : State) : Result State := onClocked (fun s => (s.repairLine line).after) s

end Sys2Proof.Machine
end

