-- ==== Sys2Proof/Machine/EtcherCmds.lean ====
section
/-! DEFINITION. The commands of the Etcher, the journal, recovery and power failure (R223 to R241, R347, R353). -/

namespace Sys2Proof.Machine

/-- FORMAT (R232). -/
def execFormat (m : Master) (s : State) : Result State := writeCommand m .etchCmd 1 s

/-- FORMAT_COMPLETE: the drive's Writes are done, and BUSY clears (R232). -/
def execFormatComplete (s : State) : Result State := onClocked State.formatted s

/-- OPEN (R240). -/
def execOpenJournal (m : Master) (s : State) : Result State := writeCommand m .etchCmd 2 s

/-- RECOVERY_COMPLETE: the journal runs, or OPEN has failed; step 8 of boot follows either way (R240, R421). OPENOK is bit 17 of BOOT_STAT (R429). The list goes
out again, so that a neighbour in fallback learns that this unit accepts a source and chooses (R345, R357): DESIGN CHOICE (log entry 46). -/
def State.recoveryComplete (s : State) : State :=
  let ok := s.etch.openFail.isNone
  match s.recoveryEnds with
  | none => s
  | some s =>
    let s := if ok && s.hasAddr then s.sendList else s
    if s.boot.released ∨ s.rfield .bootStat 0 4 ≠ 7 then s
    else (if ok then s.rsetField .bootStat 17 1 1 else s).releaseTiles
/-- RECOVERY_COMPLETE (R240). -/
def execRecoveryComplete (s : State) : Result State := onClocked (fun s => s.recoveryComplete.after) s

/-- TAIL_REQUEST: answered once the unit has an address and its root port 0 has trained (R241). -/
def execTailRequest (unit : BitVec 10) (fmtid pos : Word) (s : State) : Result State :=
  onChain (fun s => State.answerTailRequests { s with etch := { s.etch with tailAsked := s.etch.tailAsked ++ [(unit, fmtid, pos.toNat)] } }) s

/-- TAIL_ANSWER (R241). -/
def execTailAnswer (unit : BitVec 10) (tail : Option (List Byte)) (s : State) : Result State := onChain (fun s => s.tailAnswered unit tail) s

/-- TAIL_REQUEST_TIMEOUT (R241). -/
def execTailRequestTimeout (s : State) : Result State := onClocked State.tailTimeout s

/-- ETCH_CTRL_WRITE (R234). -/
def execEtchCtrlWrite (m : Master) (value : Word) (s : State) : Result State := writeCommand m .etchCtrl value s

/-- MIRROR_RECORD: a target's part (R347). -/
def execMirrorRecord (unit : BitVec 10) (jpos : Word) (record : List Byte) (s : State) : Result State :=
  onChain (fun s => s.mirrorArrives unit jpos.toNat record) s

/-- MIRROR_ACK (R224). -/
def execMirrorAck (unit : BitVec 10) (jpos : Word) (s : State) : Result State := onChain (fun s => (s.ackArrives unit jpos.toNat).after) s

/-- A record that has been dispatched waits for its acknowledgement (R225). -/
def State.waitsForAck (s : State) : Bool := decide (s.emode = 0) && s.etch.recs.any (fun r => r.journalled && r.mirrored && !r.acked)

/-- MIRROR_TIMEOUT (R225). -/
def execMirrorTimeout (s : State) : Result State := onClocked (fun s => if s.waitsForAck then s.fallback.after else s) s

/-- DRAINED_POSITION (R223). -/
def execDrainedPosition (unit : BitVec 10) (jpos : Word) (s : State) : Result State := onChain (fun s => s.drainedArrives unit jpos.toNat) s

/-- DRAINED_POSITION_REPORT (R347). -/
def execDrainedPositionReport (s : State) : Result State := onClocked (fun s => if s.etch.reported = s.etch.drained then s else s.report) s

/-- NVME_SAFE_GATHER_TIMEOUT: what was appended within 2 µs goes out as one Write of 64 KiB at most (R224). -/
def execNvmeSafeGatherTimeout (s : State) : Result State :=
  onClocked (fun s => if s.emode = 0 then s else s.issueRing (min s.jposition (s.etch.writeIssued + 65536))) s

/-- PARTIAL_BLOCK_TIMEOUT: a partly filled block has waited 20 µs (R226). -/
def execPartialBlockTimeout (s : State) : Result State := onClocked (fun s => s.issueRing s.jposition) s

/-- The oldest drive command completes (R226, R232, R240): with status 0 done, else failed. A failed fence fails the takeover (R355); a failure
while FORMAT or OPEN reads and writes ends it. -/
def State.nvmeComplete (s : State) (status : BitVec 16) : State :=
  match s.etch.nvme with
  | [] => if status = 0 then s else if s.etch.formatting then s.longFails formatOps status.toNat else if s.etchBit 7 then s.longFails openOps status.toNat else s
  | c :: r =>
    let s' := { s with etch := { s.etch with nvme := r } }
    if status = 0 then
      let s' := s'.driveDone c
      if c = NvmeCmd.zeroHeader then s'.fenceDone true else s'
    else match c with
    | .zeroHeader => s'.fenceDone false
    | .repairRead line => s'.repairReadFails line
    | _ => s'.driveError (s.commandAt c).1 (s.commandAt c).2 status.toNat
/-- NVME_COMMAND_COMPLETE (R226). -/
def execNvmeCommandComplete (status : BitVec 16) (s : State) : Result State := onClocked (fun s => (s.nvmeComplete status).after) s

/-- PROOF_EPOCH_BOUNDARY (R230). -/
def execProofEpochBoundary (s : State) : Result State := onClocked State.epochBoundary s

/-- PWRFAIL_ASSERT: the 1 µs filter starts (R236). -/
def execPwrfailAssert (s : State) : Result State :=
  onClocked (fun s => if s.pfail then s else { s with etch := { s.etch with pfailFilter := true } }) s

/-- PWRFAIL_FILTER_EXPIRY (R236). -/
def execPwrfailFilterExpiry (s : State) : Result State := onClocked State.startDrain s

/-- POWER_FAIL_DRAIN_COMPLETE: a warm reset that waited for it takes effect (R236, R417). -/
def execPowerFailDrainComplete (s : State) : Result State :=
  onClocked (fun s => if s.etch.warmPending ∧ s.etch.draining then s.drainDone.warmNow else s.drainDone.after) s

/-- PWRFAIL_DEASSERT cancels a filter that has not run out (R236). -/
def execPwrfailDeassert (s : State) : Result State := onClocked (fun s => { s with etch := { s.etch with pfailFilter := false } }) s

/-- FENCE_CHECK: in fallback the unit reads LBA 0 of its own drive (R353). -/
def execFenceCheck (s : State) : Result State :=
  onClocked (fun s => if s.emode = 2 ∧ s.journalOpen ∧ !s.etch.fenced ∧ !s.fenceOk then s.fenceStop else s) s

end Sys2Proof.Machine
end

