-- ==== Sys2Proof/Machine/HostCmds.lean ====
section
/-! DEFINITION. The commands of the host through the endpoint (R431, R432), of the TAP and of the debug module (R410 to R414). -/

namespace Sys2Proof.Machine

/-! ### Host requests (R431) -/

/-- Where a BAR offset leads: the 0x3F00 blocks, or the DRAM aperture of BAR2_BASE. -/
def State.barAddr (s : State) (bar2 : Bool) (offset : Nat) : Nat := if bar2 then (s.rget .bar2Base).toNat + offset else mmioBase + offset

/-- A host read, one TLP (R382): Completer Abort through BAR2 until step 4 of boot has ended. -/
def State.hostRead (s : State) (bar2 : Bool) (offset width : Nat) : State :=
  if !s.boot.epLinkUp then s
  else
    let s := s.active 95 1 0
    if bar2 && !s.boot.step4 then { s with out := s.out ++ [Output.hostCompletion none] }
    else s.busRequest { host := true, addr := s.barAddr bar2 offset, len := width, data := none }

/-- A host posted write, one TLP: through BAR2 dropped until step 4 of boot has ended, and aborted while a host image is being taken (R427). -/
def State.hostWrite (s : State) (bar2 : Bool) (offset : Nat) (data : List Byte) : State :=
  if !s.boot.epLinkUp then s
  else
    let s := s.active 95 1 (blocks64 data.length)
    if bar2 && !s.boot.step4 then s
    else if bar2 && s.boot.hostLocked then { s with out := s.out ++ [Output.completerAbort] }
    else s.busRequest { host := true, addr := s.barAddr bar2 offset, len := data.length, data := some data }

/-- HOST_READ (R431). -/
def execHostRead (bar2 : Bool) (offset width : Nat) (s : State) : Result State :=
  onPowered (fun s => s.hostRead bar2 offset width) s
/-- HOST_WRITE (R431). -/
def execHostWrite (bar2 : Bool) (offset : Nat) (data : List Byte) (s : State) : Result State :=
  onPowered (fun s => (s.hostWrite bar2 offset data).after) s

/-! ### The TAP (R410) -/

def State.selectIr (s : State) (i : TapIr) : State := { s with dbg := { s.dbg with ir := i } }

/-- TAP_RESET: Test-Logic-Reset selects IDCODE; run control is unchanged (R410). -/
def execTapReset (s : State) : Result State := .next { s with dbg := { s.dbg with ir := .idcode, everXfer := false } }
/-- EXTEST (R410). -/
def execExtest (s : State) : Result State := onPowered (fun s => s.selectIr .extest) s
/-- SAMPLE_PRELOAD (R410). -/
def execSamplePreload (s : State) : Result State := onPowered (fun s => s.selectIr .samplePreload) s
/-- IDCODE (R410). -/
def execIdcode (s : State) : Result State := onPowered (fun s => s.selectIr .idcode) s
/-- BYPASS (R410). -/
def execBypass (s : State) : Result State := onPowered (fun s => s.selectIr .bypass) s

/-- DBGXFER is selected: event 0x0A05 the first time since Test-Logic-Reset (R410, R416). -/
def State.selectXfer (s : State) : State :=
  let s := if s.dbg.everXfer then s else s.event 0x0A05 10 0 []
  { s with dbg := { s.dbg with ir := .dbgxfer, everXfer := true } }

/-- The previous operation waits for a held line (R180, R411). -/
def State.dbgBusy (s : State) : Bool := s.busWaits.any (fun w => !w.host)

/-- A DBGXFER operation: a new one is ignored with STATUS 1 while the previous one is in progress (R411). -/
def State.xfer (s : State) (f : State → State) : State :=
  let s := s.selectXfer
  if s.dbgBusy then s.dbgAnswer 1 0 else f s

/-- DBGXFER_NOP (R411). -/
def execDbgxferNop (s : State) : Result State := onPowered State.selectXfer s

/-- A memory operation at an aligned physical address (R411). -/
def State.dbgMem (s : State) (addr : Word) (data : Option (List Byte)) : State :=
  let a := bitsOf addr 0 46
  if a % 8 ≠ 0 then s.dbgAnswer 2 0 else s.busRequest { host := false, addr := a, len := 8, data := data }
/-- DBGXFER_MEM_READ (R411). -/
def execDbgxferMemRead (addr : Word) (s : State) : Result State := onPowered (fun s => s.xfer (fun s => s.dbgMem addr none)) s
/-- DBGXFER_MEM_WRITE (R411). -/
def execDbgxferMemWrite (addr data : Word) (s : State) : Result State :=
  onPowered (fun s => (s.xfer (fun s => s.dbgMem addr (some (leBytes 8 data.toNat)))).after) s

/-! ### Debug registers (R412, R414) -/

/-- VAULT_OPEN (R412, R414). -/
def State.vaultOpen (s : State) : Bool := s.fuseDebug || (s.rget .vdbgAuth).getLsbD 0

/-- The selected thread is closed to debug (R414). -/
def State.dbgClosed (s : State) : Bool := decide ((s.thr s.dbg.thrSel).world = .vault) && !s.vaultOpen

/-- STATUS 3, with event 0x0A04 naming the thread and the debug register (R414, R416). -/
def State.dbgDenied (s : State) (reg : Nat) : State := (s.event 0x0A04 10 0 [(2, s.dbg.thrSel.toNat), (1, reg)]).dbgAnswer 3 0

/-- The state code of THR_STATE (R412). -/
def stateCode : TState → Nat
  | .empty => 0
  | .ready => 1
  | .parked _ => 2
  | .waiting _ => 3
  | .stopped => 4

/-- THR_STATE (R412). -/
def Thread.stateWord (th : Thread) : Word :=
  BitVec.ofNat 64 (stateCode th.st + (if th.world = .vault then 8 else 0) + (if th.level = .supervisor then 16 else 0) + th.plate.pdepth * 32)

/-- The register that THR_REG_SEL selects: g0 to g31 or PCC (R412). -/
def State.dbgReg (s : State) : Cap :=
  let th := s.thr s.dbg.thrSel
  let k := s.dbg.regSel.toNat % 64
  if k = 32 then th.pcc else th.reg (BitVec.ofNat 5 k)

/-- Writes the register that THR_REG_SEL selects. -/
def State.setDbgReg (s : State) (c : Cap) : State :=
  let k := s.dbg.regSel.toNat % 64
  s.modThr s.dbg.thrSel (fun th => if k = 32 then { th with pcc := c, parity := th.parity.filter (fun p => decide (p ≠ 32)) } else th.setReg (BitVec.ofNat 5 k) c)

/-- The selected 64 bits. -/
def State.dbgHalf (s : State) : Word := BitVec.ofNat 64 (field s.dbgReg.bits (if s.dbg.regSel.getLsbD 6 then 64 else 0) 64)

/-- Access to THR_REG_DATA: closed with STATUS 3, not STOPPED with STATUS 4 (R413, R414). -/
def State.regDataBlocked (s : State) : Option State :=
  if s.dbgClosed then some (s.dbgDenied 0x28)
  else if (s.thr s.dbg.thrSel).st ≠ .stopped then some (s.dbgAnswer 4 0)
  else none

/-- A read of a debug register (R412, R413). -/
def State.dbgRegRead (s : State) (n : Nat) : State :=
  let th := s.thr s.dbg.thrSel
  match n with
  | 0x00 => s.dbgAnswer 0 (BitVec.ofNat 64 ((if s.vaultOpen then 2 else 0) + (if s.fuseDebug then 1 else 0)))
  | 0x08 => s.dbgAnswer 0 (s.dbg.thrSel.setWidth 64)
  | 0x10 => if s.dbgClosed then s.dbgDenied 0x10 else s.dbgAnswer 0 0
  | 0x18 => s.dbgAnswer 0 th.stateWord
  | 0x20 => s.dbgAnswer 0 (s.dbg.regSel.setWidth 64)
  | 0x28 => (s.regDataBlocked).getD (s.dbgAnswer 0 s.dbgHalf)
  | 0x30 => s.dbgAnswer 0 (if s.dbgReg.tag then 1 else 0)
  | 0x38 => s.dbgAnswer 0 (if th.brkClaim then 1 else 0)
  | _ => s.dbgAnswer 4 0

/-! ### Run control (R413) -/

/-- The thread stops where it is: a wait or parking is abandoned. -/
def State.stopNow (s : State) (t : Tid) : State := (s.abandon t).modThr t (fun th => { th with st := .stopped, stopReq := false, stepping := false })

/-- Stop (R207, R282, R413): a LIVE or COMMITTING plate aborts with INTERRUPT; a boundary that is not at hand is awaited. -/
def State.stopThread (s : State) (t : Tid) : State :=
  let th := s.thr t
  if th.st = .empty ∨ th.st = .stopped then s
  else if th.interruptible && (th.plate.abortable || decide (th.plate.phase = .none)) then (s.abortPlate t .interrupt).stopNow t
  else s.modThr t (fun th => { th with stopReq := true })

/-- A STOPPED thread runs again (R413): it issues, or takes the exception that a long operation has raised in the meantime. -/
def State.runAgain (s : State) (t : Tid) : State :=
  match (s.thr t).entry with
  | some e => ((s.modThr t (fun th => { th with st := .ready, entry := none })).beginEntry t e).wakeGated (tileOf t)
  | none => s.makeReady t

/-- Resume (R413). -/
def State.resumeThread (s : State) (t : Tid) : State := if (s.thr t).st = .stopped then s.runAgain t else s

/-- Step (R413): the thread issues one instruction and stops again. A thread whose instruction is not in the L1 instruction cache parks for it
first (R67). -/
def State.stepThread (s : State) (t : Tid) : State :=
  let th := s.thr t
  if th.st ≠ .stopped then s
  else
    let s' := s.modThr t (fun th => { th with stepping := true })
    match (s.check t (fetchReq th.pcc)).2 with
    | .ok segs =>
      (match s.missesFetch t segs, th.entry with
        | some line, none => (s'.modThr t (fun th => { th with st := .parked (.fetch line) })).wakeGated (tileOf t)
        | _, _ => s'.runAgain t)
    | _ => s'.runAgain t

/-- A write of THR_CMD (R412 to R414). -/
def State.thrCmd (s : State) (v : Nat) : State :=
  let t := s.dbg.thrSel
  if s.dbgClosed then s.dbgDenied 0x10
  else
    let s := match v % 4 with
      | 1 => s.stopThread t
      | 2 => s.resumeThread t
      | 3 => s.stepThread t
      | _ => s
    s.dbgAnswer 0 0

/-- A write of THR_REG_DATA (R413): half of the register, its tag cleared; or, in cursor mode with the low half, CPOINT. -/
def State.writeRegData (s : State) (v : Word) : State :=
  match s.regDataBlocked with
  | some s => s
  | none =>
    let c := s.dbgReg
    let high := s.dbg.regSel.getLsbD 6
    let cursor := s.dbg.regSel.getLsbD 7
    let c' : Cap := if cursor && !high then c.moveCursor (bitsOf v 0 54) else ⟨withField c.bits (if high then 64 else 0) 64 v.toNat, false⟩
    (s.setDbgReg c').dbgAnswer 0 0

/-- A write of DBG_CLAIM: setting it is refused for a closed thread (R412, R414). -/
def State.writeClaim (s : State) (v : Word) : State :=
  let b := v.getLsbD 0
  if b && s.dbgClosed then s.dbgDenied 0x38
  else (s.modThr s.dbg.thrSel (fun th => { th with brkClaim := b })).dbgAnswer 0 0

/-- A write of a debug register (R412, R413); a write to a read-only one is ignored (R10). -/
def State.dbgRegWrite (s : State) (n : Nat) (v : Word) : State :=
  match n with
  | 0x00 => s.dbgAnswer 0 0
  | 0x08 => State.dbgAnswer { s with dbg := { s.dbg with thrSel := v.setWidth 9 } } 0 0
  | 0x10 => s.thrCmd v.toNat
  | 0x18 => s.dbgAnswer 0 0
  | 0x20 => if v.toNat % 64 ≤ 32 then State.dbgAnswer { s with dbg := { s.dbg with regSel := v.setWidth 8 } } 0 0 else s.dbgAnswer 4 0
  | 0x28 => s.writeRegData v
  | 0x30 => s.dbgAnswer 0 0
  | 0x38 => s.writeClaim v
  | _ => s.dbgAnswer 4 0

/-- DBGXFER_REG_READ (R411). -/
def execDbgxferRegRead (addr : Word) (s : State) : Result State := onPowered (fun s => s.xfer (fun s => s.dbgRegRead (addr.toNat % 256))) s
/-- DBGXFER_REG_WRITE (R411). -/
def execDbgxferRegWrite (addr data : Word) (s : State) : Result State :=
  onPowered (fun s => (s.xfer (fun s => s.dbgRegWrite (addr.toNat % 256) data)).after) s

/-- THREAD_STOP: THR_CMD with 1 (R413). -/
def execThreadStop (s : State) : Result State := onPowered (fun s => (s.xfer (fun s => s.thrCmd 1)).after) s
/-- THREAD_RESUME: THR_CMD with 2 (R413). -/
def execThreadResume (s : State) : Result State := onPowered (fun s => s.xfer (fun s => s.thrCmd 2)) s
/-- THREAD_STEP: THR_CMD with 3 (R413). -/
def execThreadStep (s : State) : Result State := onPowered (fun s => s.xfer (fun s => s.thrCmd 3)) s
/-- THR_REG_DATA_WRITE (R413). -/
def execThrRegDataWrite (data : Word) (s : State) : Result State := onPowered (fun s => s.xfer (fun s => s.writeRegData data)) s

end Sys2Proof.Machine
end

