-- ==== Sys2Proof/Machine/Money.lean ====
section
/-! DEFINITION. The money instructions (R122 to R144). A short one completes when it issues; MMUL and MDIV leave an outstanding result whose
value and flags are fixed at issue, where MCTL is read (R144), and written at completion (R72). -/

namespace Sys2Proof.Machine

/-- A money result is written and its flags are set, or its exception is raised (R131). -/
def moneyEnd (s : State) (t : Tid) (rd : Reg) (r : MoneyResult) : Act :=
  match r with
  | .write q f => .done (s.modThr t (fun th => { (th.setReg rd (Cap.ofQuad q)) with mctl := th.mctl ||| f }))
  | .trap c => .raise s { cause := c }

/-- The body of a short money instruction: a pure result of the thread's registers and MCTL. -/
def moneyBody (f : Thread → MoneyResult) (t : Tid) (rd : Reg) (s : State) : Act := moneyEnd s t rd (f (s.thr t))

/-- The body of a short M-format instruction (R127, R134). -/
def moneyArithBody (op : MoneyOp) (t : Tid) (rd rs1 rs2 : Reg) (scale : BitVec 6) (round : BitVec 3) (te : Bool) (s : State) : Act :=
  let th := s.thr t
  match moneyScale scale round th.mctl with
  | some (k, m) => moneyEnd s t rd (moneyArith op (th.reg rs1).bits (th.reg rs2).bits k m te th.mctl)
  | none => .raise s { cause := 0x01 }

/-- What MMUL or MDIV leaves outstanding (R72). -/
def moneyKind (divider : Bool) : MoneyResult → OutKind
  | .write q f => if divider then .moneyDiv q f else .moneyMul q f
  | .trap c => .moneyTrap divider c

/-- The body of MMUL and MDIV (R72, R134). -/
def moneyLongBody (op : MoneyOp) (divider : Bool) (t : Tid) (rd rs1 rs2 : Reg) (scale : BitVec 6) (round : BitVec 3) (te : Bool) (s : State) : Act :=
  let th := s.thr t
  match moneyScale scale round th.mctl with
  | some (k, m) =>
    let r := moneyArith op (th.reg rs1).bits (th.reg rs2).bits k m te th.mctl
    let s := if divider then s.setTile (tileOf t) { s.tile (tileOf t) with mdivBusy := true } else s
    .done (s.addOut t rd te (moneyKind divider r))
  | none => .raise s { cause := 0x01 }

/-- What an M-format instruction asks for: the illegal scale and rounding codes of R82 and its registers. -/
def moneyPre (rd rs1 rs2 : Reg) (scale : BitVec 6) (round : BitVec 3) (divider : Bool) : Pre :=
  { illegal := (moneyScale scale round 0).isNone, srcs := [rs1, rs2], dests := [rd], moneyDivider := divider }

/-- MADD (R134). -/
def execMadd (t : Tid) (rd rs1 rs2 : Reg) (scale : BitVec 6) (round : BitVec 3) (te : Bool) (s : State) : Result State :=
  .next (issue s t (moneyPre rd rs1 rs2 scale round false) (moneyArithBody .add t rd rs1 rs2 scale round te))
/-- MSUB (R134). -/
def execMsub (t : Tid) (rd rs1 rs2 : Reg) (scale : BitVec 6) (round : BitVec 3) (te : Bool) (s : State) : Result State :=
  .next (issue s t (moneyPre rd rs1 rs2 scale round false) (moneyArithBody .sub t rd rs1 rs2 scale round te))
/-- MMUL (R134, R144). -/
def execMmul (t : Tid) (rd rs1 rs2 : Reg) (scale : BitVec 6) (round : BitVec 3) (te : Bool) (s : State) : Result State :=
  .next (issue s t (moneyPre rd rs1 rs2 scale round false) (moneyLongBody .mul false t rd rs1 rs2 scale round te))
/-- MDIV (R134, R144). -/
def execMdiv (t : Tid) (rd rs1 rs2 : Reg) (scale : BitVec 6) (round : BitVec 3) (te : Bool) (s : State) : Result State :=
  .next (issue s t (moneyPre rd rs1 rs2 scale round true) (moneyLongBody .div true t rd rs1 rs2 scale round te))
/-- MRESC (R134). -/
def execMresc (t : Tid) (rd rs1 rs2 : Reg) (scale : BitVec 6) (round : BitVec 3) (te : Bool) (s : State) : Result State :=
  .next (issue s t (moneyPre rd rs1 rs2 scale round false) (moneyArithBody .resc t rd rs1 rs2 scale round te))

/-- A money instruction over one register. -/
def money1 (f : Cap → Word → MoneyResult) (t : Tid) (rd rs1 : Reg) (s : State) : Result State :=
  .next (issue s t { srcs := [rs1], dests := [rd] } (moneyBody (fun th => f (th.reg rs1) th.mctl) t rd))
/-- A money instruction over two registers. -/
def money2 (f : Cap → Cap → Word → MoneyResult) (t : Tid) (rd rs1 rs2 : Reg) (s : State) : Result State :=
  .next (issue s t { srcs := [rs1, rs2], dests := [rd] } (moneyBody (fun th => f (th.reg rs1) (th.reg rs2) th.mctl) t rd))

/-- MNEG (R139). -/
def execMneg (t : Tid) (rd rs1 : Reg) (te : Bool) (s : State) : Result State := money1 (fun x m => moneyUnary true x.bits te m) t rd rs1 s
/-- MABS (R139). -/
def execMabs (t : Tid) (rd rs1 : Reg) (te : Bool) (s : State) : Result State := money1 (fun x m => moneyUnary false x.bits te m) t rd rs1 s
/-- MCEQ (R139). -/
def execMceq (t : Tid) (rd rs1 rs2 : Reg) (te : Bool) (s : State) : Result State :=
  money2 (fun x y m => moneyCompare .eq x.bits y.bits te m) t rd rs1 rs2 s
/-- MCLT (R139). -/
def execMclt (t : Tid) (rd rs1 rs2 : Reg) (te : Bool) (s : State) : Result State :=
  money2 (fun x y m => moneyCompare .lt x.bits y.bits te m) t rd rs1 rs2 s
/-- MCLE (R139). -/
def execMcle (t : Tid) (rd rs1 rs2 : Reg) (te : Bool) (s : State) : Result State :=
  money2 (fun x y m => moneyCompare .le x.bits y.bits te m) t rd rs1 rs2 s
/-- MISV (R139): bit 127 alone. -/
def execMisv (t : Tid) (rd rs1 : Reg) (s : State) : Result State :=
  money1 (fun x _ => .write (if x.bits.getLsbD 127 then 1 else 0) 0) t rd rs1 s
/-- MA2L (R142). -/
def execMa2l (t : Tid) (rd rs1 rs2 : Reg) (n : BitVec 4) (te : Bool) (s : State) : Result State :=
  money2 (fun x y m => moneyFromAscii x.bits y.bits (digitCount n) te m) t rd rs1 rs2 s
/-- ML2A (R143). -/
def execMl2a (t : Tid) (rd rs1 rs2 : Reg) (n : BitVec 4) (te : Bool) (s : State) : Result State :=
  money2 (fun x y m => moneyToAscii x.bits y.bits (digitCount n) te m) t rd rs1 rs2 s

/-- What MLGET and MLSET ask for: a limb index above 9 raises ILLEGAL_OP (R140). -/
def limbPre (rd : Reg) (srcs : List Reg) (k : BitVec 4) : Pre := { illegal := decide (9 < k.toNat), srcs := srcs, dests := [rd] }
/-- MLGET (R140). -/
def execMlget (t : Tid) (rd rs1 : Reg) (k : BitVec 4) (s : State) : Result State :=
  .next (issue s t (limbPre rd [rs1] k) (moneyBody (fun th => .write (BitVec.ofNat 128 (limbGet (th.reg rs1).bits k.toNat)) 0) t rd))
/-- MLSET (R140). -/
def execMlset (t : Tid) (rd rs1 rs2 : Reg) (k : BitVec 4) (s : State) : Result State :=
  .next (issue s t (limbPre rd [rs1, rs2] k)
    (moneyBody (fun th => .write (limbSet (th.reg rs1).bits k.toNat (th.reg rs2).low.toNat) 0) t rd))
/-- MCVTI (R141). -/
def execMcvti (t : Tid) (rd rs1 : Reg) (s : State) : Result State := money1 (fun x _ => moneyFromInt x.low) t rd rs1 s
/-- MCVTM (R141). -/
def execMcvtm (t : Tid) (rd rs1 : Reg) (te : Bool) (s : State) : Result State := money1 (fun x m => moneyToInt x.bits te m) t rd rs1 s

end Sys2Proof.Machine
end

