-- ==== Sys2Proof/Machine/TlsRecords.lean ====
section
/-! DEFINITION. TLS records as a port receives them (R306, R308), and the notice that the peer has closed (R297, R314). -/

namespace Sys2Proof.Machine

/-- A TLS failure: the alert, then RST; notice RESET, event 0x0702 (R308, R332). -/
def State.tlsFails (s : State) (n alert : Nat) : State :=
  let s := (s.rcount (.peCnt 3)).event 0x0702 5 n [(2, n), (1, alert)]
  let p := s.port n
  let s := match p.txSlot with
    | some k =>
      let (s, d) := sealRecord s k 21 [2, BitVec.ofNat 8 alert]
      let s := s.sendSegment n (mkSegment s p p.tcb.sndNxt false false d)
      s.modPort n (fun p => { p with tcb := { p.tcb with sndNxt := p.tcb.sndNxt + BitVec.ofNat 32 d.length } })
    | none => s
  s.failPort n true

/-- The peer's FIN, or its close_notify (R294, R297, R308). -/
def State.peerFin (s : State) (n : Nat) : State :=
  (s.modPort n (fun p => { p with finRcvd := true, state := if p.state = .open then .closing else p.state })).bothFins n

/-- The plaintext of an inner record without its padding: content and type; none when it is all zeros. -/
def innerRecord (d : List Byte) : Option (List Byte × Byte) :=
  match (d.reverse.dropWhile (fun b => decide (b = 0))) with
  | [] => none
  | ct :: r => some (r.reverse, ct)

/-- The slot's key opens a record; its sequence number rises. -/
def openRecord (s : State) (slot : Nat) (header frag : List Byte) : State × Option (List Byte) :=
  let k := s.key slot
  let s := s.cryptoRecord slot frag.length
  match Config.aeadOpen k.key k.aes256 (recordNonce k) header frag with
  | none => (s, none)
  | some d => ({ s with keys := Map.set s.keys slot { k with seqNo := k.seqNo + 1 } }, some d)

/-- One decrypted record of an OPEN port (R308). An inner type that R308 does not list is a TLS error: alert unexpected_message. What follows a
close_notify lies beyond the peer's FIN. -/
def State.openContent (s : State) (n : Nat) (content : List Byte) (ct : Byte) : State :=
  if 16384 < content.length then s.tlsFails n 22
  else if ct = 23 then s.modPort n (fun p => { p with stream := p.stream ++ content })
  else if ct = 21 then (if content[1]? = some 0 then (s.modPort n (fun p => { p with cipher := [] })).peerFin n else s.failPort n true)
  else if ct = 22 then
    (s.modPort n (fun p => { p with hsQueue := p.hsQueue ++ [ct :: content], rxStopped := true })).raiseVecReg (.peVec 1)
  else s.tlsFails n 10

/-- One whole record of port n (R306, R308). -/
def State.tlsRecord (s : State) (n : Nat) (header frag : List Byte) : State :=
  let p := s.port n
  let ct := (header[0]?).getD 0
  match p.rxSlot with
  | none => s.modPort n (fun p => { p with hsQueue := p.hsQueue ++ [ct :: frag] })
  | some k =>
    if p.state = .handshake ∧ ct ≠ 23 then s.modPort n (fun p => { p with hsQueue := p.hsQueue ++ [ct :: frag] })
    else
      match openRecord s k header frag with
      | (s, none) => s.tlsFails n 20
      | (s, some d) =>
        match innerRecord d with
        | none => s.tlsFails n 10
        | some (content, inner) =>
          if p.state = .handshake then
            (if 16384 < content.length then s.tlsFails n 22
            else s.modPort n (fun p => { p with hsQueue := p.hsQueue ++ [inner :: content] }))
          else s.openContent n content inner

/-- The next record comes unprotected (R306). -/
def Port.bare (p : Port) : Bool := p.rxSlot.isNone || (decide (p.state = .handshake) && decide (p.cipher[0]? ≠ some 23))

/-- The whole records among the received bytes, while reception runs. -/
def tlsRecords (s : State) (n : Nat) : Nat → State
  | 0 => s
  | k + 1 =>
    let p := s.port n
    let len := beValue (sliceBytes p.cipher 3 2)
    if p.rxStopped ∨ p.cipher.length < 5 ∨ !(p.state = .handshake ∨ p.state = .open ∨ p.state = .closing) then s
    else if 16640 < len ∨ (16384 < len ∧ p.bare) then s.tlsFails n 22
    else if p.cipher.length < 5 + len then s
    else
      let header := p.cipher.take 5
      let frag := (p.cipher.drop 5).take len
      tlsRecords ((s.modPort n (fun p => { p with cipher := p.cipher.drop (5 + len) })).tlsRecord n header frag) n k

/-- Reads what has been received so far. -/
def State.readRecords (s : State) (n : Nat) : State := tlsRecords s n ((s.port n).cipher.length / 5 + 1)

/-- The CLOSED notice, once the peer's FIN has come and nothing more is to be delimited (R297, R314). -/
def State.closedNotice (s : State) (n : Nat) : State :=
  let p := s.port n
  if p.finRcvd ∧ p.notice = .none ∧ p.stream = [] ∧ p.cipher = [] ∧ p.hsQueue = [] then (s.modPort n (fun p => { p with notice := .closed })).offerPort n else s

end Sys2Proof.Machine
end

