-- ==== Sys2Proof/Machine/PortInsn.lean ====
section
/-! DEFINITION. The port instructions PRECV, PSEND, PWAIT and PCTL, and the expiries of a PWAIT and of a claim (R293, R297, R313 to R323,
R350). -/

namespace Sys2Proof.Machine

/-- port(c) of R315. -/
def portCheck (c : Cap) (reg : Reg) : Option Exc :=
  let raise (k : Nat) : Option Exc := some { cause := k, detail := reg.toNat, fa := c.cursor }
  if !c.tag then raise 0x03
  else if c.seal ≠ 0 then raise 0x06
  else if !c.has .port then raise 0x05
  else if c.cursor < c.base ∨ c.top ≤ c.cursor ∨ 4096 ≤ c.cursor then raise 0x04
  else none

/-- The statuses of R314. -/
inductive PStatus where
  | ok | none | closed | reset | free | moved | handshake | full | toobig | notnow
  deriving DecidableEq, Repr

def PStatus.code : PStatus → Nat
  | .ok => 0 | .none => 1 | .closed => 2 | .reset => 3 | .free => 4 | .moved => 5 | .handshake => 6 | .full => 7 | .toobig => 8 | .notnow => 9

/-- An instruction completes with a word in rd. -/
def withWord (t : Tid) (rd : Reg) (v : Word) (s : State) : Act := .done (s.modThr t (fun th => th.wrInt rd v))

/-- An instruction completes with a status in rd. -/
def withStatus (t : Tid) (rd : Reg) (c : PStatus) (s : State) : Act := withWord t rd (BitVec.ofNat 64 c.code) s

/-- The port is FREE for a thread of world w (R293). -/
def Port.freeFor (p : Port) (w : World) : Bool := decide (p.state = .free) || decide (p.world ≠ w)

/-! ### PRECV (R317, R211) -/

/-- The capability of a message (R317). -/
def Port.messageCap (p : Port) (d : RxDesc) : Cap :=
  let c := p.rxbuf
  { (c.narrowTo (c.base + d.off) d.len).setRights (0x0001 ||| (c.rights &&& 0x0020)) with tag := true }

/-- Messages of port n that t's plate has taken. -/
def Plate.takenOf (p : Plate) (n : Nat) : Nat := ((p.consumed.find? (fun c => decide (c.1 = n))).map (·.2)).getD 0

/-- PRECV's answer when no message is left. -/
def Port.noMessage (p : Port) : PStatus :=
  match p.notice with
  | .none => .none
  | .closed => .closed
  | .reset => .reset

/-- PRECV inside a plate (R194, R195, R211): the cursor's line joins the read set, its granule takes a plate-buffer entry, and the message is taken
by the plate. -/
def recvInPlate (t : Tid) (rd : Reg) (n : Nat) (s : State) : Act :=
  let q := s.plate t
  let p := s.port n
  let k := q.takenOf n
  let new := (q.consumed.find? (fun c => decide (c.1 = n))).isNone
  if s.heldByOther (some t) (cursorLine n) then .abort s .conflict
  else
    match addReads q.reads [cursorLine n] with
    | none => .abort s { cause := 4 }
    | some l =>
      if new ∧ s.bufferUsed (tileOf t) ≥ 256 then
        let sh := decide (q.writes.length + q.consumed.length < 256)
        .abort s { cause := 3, shared := sh, retry := sh }
      else
        let taken (d : Nat) : State := s.modThr t (fun th =>
          { th with plate := { th.plate with reads := l, consumed := Map.set th.plate.consumed n (k + d) } })
        match p.rxq[k]? with
        | none => withStatus t rd p.noMessage (taken 0)
        | some d => .done ((taken 1).modThr t (fun th => th.setReg rd (p.messageCap d)))

/-- PRECV outside a plate (R180, R317): consumption takes effect at once. -/
def recvOutside (t : Tid) (rd : Reg) (n : Nat) (s : State) : Act :=
  let p := s.port n
  if s.heldByOther (some t) (cursorLine n) then .hold s (.heldLine false)
  else
    match p.rxq with
    | [] => withStatus t rd p.noMessage (s.conflict (some t) (cursorLine n) false)
    | d :: _ =>
      let s := (s.conflict (some t) (cursorLine n) true).modPort n (fun p => p.afterConsume 1)
      let s := s.windowUpdate n
      .done (s.modThr t (fun th => th.setReg rd (p.messageCap d)))

/-- A plate executes PRECV or PSEND on port n, whatever the status (R192, R210). -/
def State.usesPort (s : State) (t : Tid) (n : Nat) (recv : Bool) : State :=
  if s.inPlate t then
    s.modThr t (fun th => { th with plate := { th.plate with ports := insertNat n th.plate.ports, tookRecv := th.plate.tookRecv || recv,
                                                             tookSend := th.plate.tookSend || !recv } })
  else s

/-- The body of PRECV (R317). -/
def precvBody (t : Tid) (rd rs1 : Reg) (s : State) : Act :=
  let th := s.thr t
  let c := th.reg rs1
  match portCheck c rs1 with
  | some e => .raise s e
  | none =>
    let n := c.cursor
    let p := s.port n
    let s := s.usesPort t n true
    if p.freeFor th.world then withStatus t rd .free s
    else if p.moved.isSome then (if s.inPlate t then .abort s .migrated else withStatus t rd .moved s)
    else if p.state = .handshake ∧ th.world = .main then withStatus t rd .handshake s
    else if s.inPlate t then recvInPlate t rd n s
    else recvOutside t rd n s
/-- PRECV (R317). -/
def execPrecv (t : Tid) (rd rs1 : Reg) (s : State) : Result State := .next (issue s t { srcs := [rs1], dests := [rd] } (precvBody t rd rs1))

/-! ### PSEND (R318, R212, R319) -/

/-- PSEND's checks of its message capability (R318). -/
def messageCheck (c : Cap) (reg : Reg) : Option Exc :=
  let raise (k : Nat) : Option Exc := some { cause := k, detail := reg.toNat, fa := c.cursor }
  if !c.tag then raise 0x03
  else if c.seal ≠ 0 then raise 0x06
  else if !c.has .ld then raise 0x05
  else if c.cursor < c.base ∨ c.top < c.cursor then raise 0x04
  else none

/-- An entry that no plate has to commit first. -/
def State.placed (s : State) (e : TxEntry) : Bool :=
  match e.plate with
  | some u => decide ((s.plate u).phase = .held)
  | none => true

/-- A new transmit entry: a plate's waits at the end, another takes its place before those of plates that have not committed (R319). -/
def State.addEntry (s : State) (n : Nat) (e : TxEntry) : State :=
  let q := (s.port n).txq
  let q := if e.plate.isSome then q ++ [e] else q.filter s.placed ++ [e] ++ q.filter (fun x => !s.placed x)
  s.modPort n (fun p => { p with txq := q })

/-- The body of PSEND (R318). -/
def psendBody (t : Tid) (rd rs1 rs2 : Reg) (s : State) : Act :=
  let th := s.thr t
  let c := th.reg rs1
  let m := th.reg rs2
  match portCheck c rs1, messageCheck m rs2 with
  | some e, _ => .raise s e
  | none, some e => .raise s e
  | none, none =>
    let n := c.cursor
    let p := s.port n
    let len := m.top - m.cursor
    let s := s.usesPort t n false
    if p.freeFor th.world then withStatus t rd .free s
    else if p.moved.isSome then (if s.inPlate t then .abort s .migrated else withStatus t rd .moved s)
    else if p.state = .handshake ∧ th.world = .main then withStatus t rd .handshake s
    else if p.state = .closed ∨ (p.state = .closing ∧ p.closeReq) then withStatus t rd .reset s
    else if p.sendLimit < len then withStatus t rd .toobig s
    else if 4 ≤ p.txq.length then withStatus t rd .full s
    else
      let stamp := if !s.inPlate t && confHold p.conf then s.nextCsn - 1 else 0
      let e : TxEntry := { cap := m, len := len, stamp := stamp, plate := if s.inPlate t then some t else none, need := stamp,
                           ofPlate := s.inPlate t, late := p.closeReq, released := false, sent := false,
                           dead := false, taken := false, startSeq := 0, wire := [] }
      let s := s.addEntry n e
      if s.inPlate t then
        withStatus t rd .ok (s.modThr t (fun th => { th with plate := { th.plate with sends := insertNat n th.plate.sends } }))
      else withStatus t rd .ok (s.pumpPort n)
/-- PSEND (R318). -/
def execPsend (t : Tid) (rd rs1 rs2 : Reg) (s : State) : Result State :=
  .next (issue s t { srcs := [rs1, rs2], dests := [rd] } (psendBody t rd rs1 rs2))

/-! ### PWAIT (R316) -/

/-- The body of PWAIT (R316): the claims end, then a ready port is taken; a timeout of 0 polls once. -/
def pwaitBody (t : Tid) (rd rs1 rs2 : Reg) (s : State) : Act :=
  let th := s.thr t
  let c := th.reg rs1
  if s.inPlate t then .raise s plateIllegal
  else
    match portCheck c rs1 with
    | some e => .raise s e
    | none =>
      let lo := c.base
      let hi := min c.top 4096
      let s := endClaims s t
      match findPort s t lo hi with
      | some n => withWord t rd (BitVec.ofNat 64 n) (s.claimPort t n)
      | none =>
        if (th.reg rs2).low = 0 then withWord t rd (BitVec.allOnes 64) s else .wait s (.pwait rd lo hi s.fresh)
/-- PWAIT (R316). -/
def execPwait (t : Tid) (rd rs1 rs2 : Reg) (s : State) : Result State :=
  .next (issue s t { srcs := [rs1, rs2], dests := [rd] } (pwaitBody t rd rs1 rs2))

/-- PWAIT_TIMEOUT: a port that became ready wins; else rd receives all ones (R316). -/
def execPwaitTimeout (t : Tid) (s : State) : Result State :=
  match (s.thr t).st with
  | .waiting (.pwait rd lo hi _) =>
    (match findPort s t lo hi with
      | some n => .next (((s.claimPort t n).modThr t (fun th => (th.dropOlder s.fresh [rd]).wrInt rd (BitVec.ofNat 64 n))).complete t)
      | none => .next ((s.modThr t (fun th => (th.dropOlder s.fresh [rd]).wrInt rd (BitVec.allOnes 64))).complete t))
  | _ => .next s

/-- PORT_CLAIM_EXPIRY: the claim ends, and the port goes to the thread that waits for it (R316). -/
def execPortClaimExpiry (port : Nat) (s : State) : Result State :=
  .next ((s.modPort port (fun p => { p with claim := none })).offerPort port)

/-! ### PCTL (R297, R321, R322) -/

/-- The status word of a FREE port (R321). -/
def freeStatus : Word := BitVec.ofNat 64 (4 * 2 ^ 24)

/-- The body of PCTL QUERY (R322). -/
def pctlQueryBody (t : Tid) (rd rs1 : Reg) (s : State) : Act :=
  let th := s.thr t
  let c := th.reg rs1
  match portCheck c rs1 with
  | some e => .raise s e
  | none =>
    let p := s.port c.cursor
    withWord t rd (if p.freeFor th.world then freeStatus else p.statusWord) s
/-- PCTL QUERY (R322). -/
def execPctlQuery (t : Tid) (rd rs1 rs2 : Reg) (s : State) : Result State :=
  .next (issue s t { srcs := [rs1, rs2], dests := [rd] } (pctlQueryBody t rd rs1))

/-- The frame of CLOSE, ABORT, RELEASE, SETCONF and KEYS (R321): the port check, NOTNOW inside a plate, FREE on a FREE port. -/
def pctlBody (t : Tid) (rd rs1 : Reg) (op : Nat → State → Act) (s : State) : Act :=
  let th := s.thr t
  let c := th.reg rs1
  match portCheck c rs1 with
  | some e => .raise s e
  | none =>
    if s.inPlate t then withStatus t rd .notnow s
    else if (s.port c.cursor).freeFor th.world then withStatus t rd .free s
    else op c.cursor s

/-- CLOSE (R297): not possible before OPEN, on a connection that has ended or moved, or twice. -/
def closeOp (t : Tid) (rd : Reg) (n : Nat) (s : State) : Act :=
  let p := s.port n
  if !(p.state = .open ∨ p.state = .closing) ∨ p.closeReq ∨ p.moved.isSome then withStatus t rd .notnow s
  else withStatus t rd .ok ((s.modPort n (fun p => { p with closeReq := true })).pumpPort n)
/-- PCTL CLOSE (R297). -/
def execPctlClose (t : Tid) (rd rs1 rs2 : Reg) (s : State) : Result State :=
  .next (issue s t { srcs := [rs1, rs2], dests := [rd] } (pctlBody t rd rs1 (closeOp t rd)))

/-- ABORT (R321): RST, both queues discarded, CLOSED with notice RESET. -/
def abortOp (t : Tid) (rd : Reg) (n : Nat) (s : State) : Act :=
  let p := s.port n
  if p.state = .closed ∨ p.moved.isSome then withStatus t rd .notnow s
  else if s.heldByOther (some t) (cursorLine n) then .hold s (.heldLine false)
  else
    let s := (s.conflict (some t) (cursorLine n) true).sendRst n
    let s := s.modPort n (fun p => { p.toReset with rxq := [], soff := p.streamOffset, rOff := p.wOff, hsQueue := [] })
    withStatus t rd .ok (s.offerPort n)
/-- PCTL ABORT (R321). -/
def execPctlAbort (t : Tid) (rd rs1 rs2 : Reg) (s : State) : Result State :=
  .next (issue s t { srcs := [rs1, rs2], dests := [rd] } (pctlBody t rd rs1 (abortOp t rd)))

/-- RELEASE (R297, R350): CLOSED to FREE; in TIME-WAIT what is undelivered is discarded at once and the port is FREE later, in the forwarding window
all of it waits for the window's end. -/
def releaseOp (t : Tid) (rd : Reg) (n : Nat) (s : State) : Act :=
  let p := s.port n
  if p.state ≠ .closed ∧ !p.gone then withStatus t rd .notnow s
  else if s.heldByOther (some t) (cursorLine n) then .hold s (.heldLine false)
  else
    let s := s.conflict (some t) (cursorLine n) true
    if p.timeWait then
      withStatus t rd .ok (s.modPort n (fun p => { p with releaseReq := true, rxq := [], soff := p.streamOffset, rOff := p.wOff, stream := [], hsQueue := [] }))
    else if p.fwdWindow then withStatus t rd .ok (s.modPort n (fun p => { p with releaseReq := true }))
    else withStatus t rd .ok (s.freePort n)
/-- PCTL RELEASE (R297). -/
def execPctlRelease (t : Tid) (rd rs1 rs2 : Reg) (s : State) : Result State :=
  .next (issue s t { srcs := [rs1, rs2], dests := [rd] } (pctlBody t rd rs1 (releaseOp t rd)))

/-- No message is being cut: the next byte of the stream starts one (R309). -/
def Port.atBoundary (p : Port) : Bool := decide (p.resv = 0) && decide (p.skip = 0) && !p.skipDelim && p.stream.isEmpty

/-- SETCONF (R300, R309): in effect from the next message boundary. -/
def setconfOp (t : Tid) (rd rs2 : Reg) (n : Nat) (s : State) : Act :=
  let p := s.port n
  let v := ((s.thr t).reg rs2).low
  let new := fieldWrite (p.confNext.getD p.conf) v confFields
  if p.atBoundary then withStatus t rd .ok (s.modPort n (fun p => { p with conf := new, confNext := none }))
  else withStatus t rd .ok (s.modPort n (fun p => { p with confNext := some new }))
/-- PCTL SETCONF (R321). -/
def execPctlSetconf (t : Tid) (rd rs1 rs2 : Reg) (s : State) : Result State :=
  .next (issue s t { srcs := [rs1, rs2], dests := [rd] } (pctlBody t rd rs1 (setconfOp t rd rs2)))

/-- KEYS (R321): Vault only; slots, APP, and the resumption of a stopped reception. -/
def keysOp (t : Tid) (rd rs2 : Reg) (n : Nat) (s : State) : Act :=
  let p := s.port n
  let v := ((s.thr t).reg rs2).low
  let live := p.tls && (decide (p.state = .handshake) || decide (p.state = .open) || decide (p.state = .closing)) && p.moved.isNone
  if (s.thr t).world = .main ∨ !live then withStatus t rd .notnow s
  else
    let rx := some (bitsOf v 0 13)
    let tx := some (bitsOf v 16 13)
    let app := v.getLsbD 31
    let st := if p.state = .handshake ∧ app then (if p.finRcvd then .closing else .open) else p.state
    let resumes := decide (p.state ≠ .handshake)
    let s := s.modPort n (fun p => { p with rxSlot := rx, txSlot := tx, state := st, rxStopped := if resumes then false else p.rxStopped })
    withStatus t rd .ok ((if resumes then (s.readRecords n).closedNotice n else s).pumpPort n)
/-- PCTL KEYS (R321). -/
def execPctlKeys (t : Tid) (rd rs1 rs2 : Reg) (s : State) : Result State :=
  .next (issue s t { srcs := [rs1, rs2], dests := [rd] } (pctlBody t rd rs1 (keysOp t rd rs2)))

/-- LPOOL's checks of its pool capability (R321). -/
def poolCheck (c : Cap) (reg : Reg) (need : Nat) : Option Exc :=
  let raise (k : Nat) : Option Exc := some { cause := k, detail := reg.toNat, fa := c.cursor }
  if !c.tag then raise 0x03
  else if c.seal ≠ 0 then raise 0x06
  else if !c.has .ld ∨ !c.has .st then raise 0x05
  else if c.length < need then raise 0x04
  else none

/-- The body of PCTL LPOOL (R321). -/
def lpoolBody (t : Tid) (rd rs1 rs2 : Reg) (s : State) : Act :=
  let th := s.thr t
  let c := th.reg rs1
  let l := bitsOf (th.reg rs2).low 0 6
  if s.inPlate t then withStatus t rd .notnow s
  else
    match poolCheck c rs1 ((s.rfield (.lrange l) 16 12 + 1) * s.slotBytes l) with
    | some e => .raise s e
    | none =>
      if s.listens l ∨ !((s.listenPorts l).all (fun n => decide ((s.port n).state = .free))) then withStatus t rd .notnow s
      else
        withStatus t rd .ok { s with pools := Map.put none s.pools l (some { cap := c, world := th.world, troot := th.troot th.world }) }
/-- PCTL LPOOL (R321). -/
def execPctlLpool (t : Tid) (rd rs1 rs2 : Reg) (s : State) : Result State :=
  .next (issue s t { supervisor := true, srcs := [rs1, rs2], dests := [rd] } (lpoolBody t rd rs1 rs2))

end Sys2Proof.Machine
end

