-- ==== Sys2Proof/Machine/Tcp.lean ====
section
/-! DEFINITION. The port engine's receive side: binding (R295, R296), TCP (R303, RFC 9293, RFC 5681, RFC 6582, RFC 6298, RFC 7323), TLS records
(R306, R308), and the cutting of messages (R309 to R311). -/

/-! ### Arithmetic of a connection (R303) -/

namespace Sys2Proof

/-- The bytes of sequence space that a segment takes. -/
def Segment.seqLen (g : Segment) : Nat := g.data.length + (if g.syn then 1 else 0) + (if g.fin then 1 else 0)

/-- RFC 6298 with RTO never below MINRTO, in ms. -/
def Tcb.sample (c : Tcb) (minRto r : Nat) : Tcb :=
  let diff := if c.srtt < r then r - c.srtt else c.srtt - r
  let var := if c.srtt = 0 then r / 2 else (3 * c.rttvar + diff) / 4
  let srtt := if c.srtt = 0 then max r 1 else (7 * c.srtt + r) / 8
  { c with srtt := srtt, rttvar := var, rto := max minRto (srtt + max 1 (4 * var)) }

/-- Bytes in flight. -/
def Tcb.flight (c : Tcb) : Nat := (c.sndNxt - c.sndUna).toNat

/-- The window after n new bytes are acknowledged outside recovery (RFC 5681). -/
def Tcb.grow (c : Tcb) (n : Nat) : Tcb :=
  { c with cwnd := if c.cwnd < c.ssthresh then c.cwnd + min n c.mss else c.cwnd + max 1 (c.mss * c.mss / max 1 c.cwnd) }

/-- SND.WND, SND.WL1 and SND.WL2 after a segment whose acknowledgement is not old (RFC 9293). -/
def Tcb.window (c : Tcb) (g : Segment) : Tcb :=
  if Machine.seqLt c.sndWl1 g.seqNo || (decide (c.sndWl1 = g.seqNo) && Machine.seqLe c.sndWl2 g.ackNo) then
    { c with sndWnd := g.window * 2 ^ c.sndScale, sndWl1 := g.seqNo, sndWl2 := g.ackNo }
  else c

/-- The guard of RFC 6582: an acknowledgement that covers no more than `guard` starts no fast retransmit. -/
def Tcb.mayRecover (c : Tcb) (ack : BitVec 32) : Bool :=
  c.recover.isNone && (match c.guard with
    | some x => Machine.seqLt x (ack - 1)
    | none => true)

/-- The control block after an acceptable acknowledgement of n new bytes (RFC 5681, RFC 6582, RFC 6298). -/
def Tcb.acked (c : Tcb) (ack : BitVec 32) (n minRto : Nat) (echo : Option Nat) (now : Nat) : Tcb :=
  let r : Option Nat := match echo, c.timed with
    | some x, _ => some x
    | none, some (q, t0) => if Machine.seqLt q ack then some ((now - t0) / 100000) else none
    | none, none => none
  let c := match r with
    | some x => c.sample minRto x
    | none => c
  let timed := match c.timed with
    | some (q, t0) => if Machine.seqLt q ack then none else some (q, t0)
    | none => none
  let c := { c with sndUna := ack, rtxCount := 0, dupAcks := 0, timed := timed }
  match c.recover with
  | none => c.grow n
  | some x =>
    if Machine.seqLt x ack then { c with recover := none, cwnd := min c.ssthresh (max c.flight c.mss + c.mss) }
    else { c with cwnd := c.cwnd - n + (if n ≥ c.mss then c.mss else 0) }

end Sys2Proof

namespace Sys2Proof.Machine

/-! ### Segments that belong to no connection (R295, R304) -/

/-- The RST that answers a segment without a connection (RFC 9293). -/
def rstFor (g : Segment) : Segment :=
  { sport := g.dport, dport := g.sport, seqNo := if g.ack then g.ackNo else 0, ackNo := if g.ack then 0 else g.seqNo + BitVec.ofNat 32 g.seqLen,
    syn := false, ack := !g.ack, fin := false, rst := true, window := 0, mss := none, wscale := none, sackOk := false, sacks := [],
    tstamp := none, checksumOk := true, data := [] }

/-- The headers of an answer go back to where the frame came from. -/
def State.answerHeader (s : State) (mac : Nat) (f : Frame) (q : Packet) : SentHeader := s.headerOut mac f.src f.vlan q.v6 q.dst q.src

/-- Answers with RST, but never an RST (R304); PE_CNT_5 and the MAC count it. -/
def State.answerRst (s : State) (mac : Nat) (f : Frame) (g : Segment) : State :=
  match f.packet, g.rst with
  | some q, false =>
    let h := s.answerHeader mac f q
    let s := (s.rcount (.peCnt 5)).countSent mac (frameOctets h (rstFor g))
    { s with out := s.out ++ [Output.answer mac h (rstFor g)] }
  | _, _ => s

/-! ### Binding (R295, R296) -/

/-- A listener matches a segment (R295, R328). -/
def State.listenerMatches (s : State) (l mac : Nat) (vlan : Option (BitVec 12)) (q : Packet) (g : Segment) : Bool :=
  let w := s.rget (.lcfg l)
  let ip : Quad := (s.rget (.lip0 l)).setWidth 128 ||| ((s.rget (.lip1 l)).setWidth 128 <<< 64)
  let dst : Quad := if q.v6 then q.dst else q.dst &&& 0xFFFFFFFF
  let own : Quad := if q.v6 then ip else ip &&& 0xFFFFFFFF
  let vid := bitsOf w 20 12
  w.getLsbD 16 && (w.getLsbD 18 == q.v6) && decide (own = dst) && decide (bitsOf w 0 16 = g.dport.toNat) && w.getLsbD (32 + mac) &&
    (w.getLsbD 19 || (match vlan with
      | some v => decide (v.toNat = vid ∧ vid ≠ 0)
      | none => decide (vid = 0)))

/-- The MSS that the unit sends (R303). -/
def State.ownMss (s : State) (mac : Nat) (v6 : Bool) : Nat := (s.rget (.macMtu mac)).toNat - (if v6 then 60 else 40)

/-- The initial congestion window of RFC 5681. -/
def initialWindow (mss : Nat) : Nat := if mss > 2190 then 2 * mss else if mss > 1095 then 3 * mss else 4 * mss

/-- MINRTO, RTX_MAX (R327). -/
def State.minRto (s : State) : Nat := s.rfield .peCtrl 12 12
def State.rtxMax (s : State) : Nat := s.rfield .peCtrl 24 8

/-- The control block of a new connection. -/
def newTcb (s : State) (mac : Nat) (v6 : Bool) (g : Segment) (iss : BitVec 32) : Tcb :=
  let peer := g.mss.getD (if v6 then 1220 else 536)
  let mss := min peer (s.ownMss mac v6) - (if g.tstamp.isSome then 12 else 0)
  { Tcb.reset with
    sndUna := iss, sndNxt := iss + 1, sndWnd := g.window, sndWl1 := g.seqNo, sndWl2 := iss, rcvNxt := g.seqNo + 1, sndScale := g.wscale.getD 0,
    rcvScale := if g.wscale.isSome then 7 else 0, mss := mss, cwnd := initialWindow mss, ssthresh := 2 ^ 30, rto := max 1000 s.minRto,
    tsRecent := match g.tstamp with
      | some x => x.1
      | none => 0,
    tsOn := g.tstamp.isSome, sackOn := g.sackOk }

/-- The SYN-ACK of a port in SYN_RCVD (R303). -/
def synAck (s : State) (p : Port) : Segment :=
  { mkSegment s p (p.tcb.sndNxt - 1) false false [] with
    syn := true, window := min 65535 p.room, mss := some (s.ownMss p.mac p.v6), wscale := if p.tcb.rcvScale = 7 then some 7 else none,
    sackOk := p.tcb.sackOn, sacks := [] }

/-- SYN_ACCEPT: the lowest FREE port of the listener is bound (R295). -/
def State.bindPort (s : State) (n l k mac : Nat) (f : Frame) (q : Packet) (g : Segment) (pool : Pool) : State :=
  let (s, iss) := s.freeWord
  let size := s.slotBytes l
  let tcb := newTcb s mac q.v6 g (iss.setWidth 32)
  let conf := s.rget (.ldef l)
  let tls := (s.rget (.lcfg l)).getLsbD 17
  let s := s.modPort n (fun p =>
    { Port.reset with
      state := .synRcvd, world := pool.world, listener := l, troot := pool.troot, conf := conf,
      rxbuf := pool.cap.narrowTo (pool.cap.base + k * size) size, laddr := q.dst, raddr := q.src, lport := g.dport, rport := g.sport,
      peerMac := f.src, vlan := f.vlan, mac := mac, v6 := q.v6, tcb := tcb, tls := tls, bindno := (p.bindno + 1) % 65536, gen := p.gen })
  s.sendSegment n (synAck s (s.port n))

/-- A SYN without a connection: the first matching listener takes it, or RST; without a FREE port or a pool it is dropped (R295, R296). -/
def State.acceptSyn (s : State) (mac : Nat) (f : Frame) (q : Packet) (g : Segment) : State :=
  match (List.range 64).find? (fun l => s.listenerMatches l mac f.vlan q g) with
  | none => s.answerRst mac f g
  | some l =>
    match s.freeOf l, s.pool l with
    | some n, some pool => s.bindPort n l (n - s.rfield (.lrange l) 0 12) mac f q g pool
    | _, _ => ((s.rcount (.peCnt 0)).event 0x0704 5 0xFFF [(1, l)]).raiseVecReg (.peVec 2)

/-! ### Round-trip time and congestion (R303) -/

/-- Entries whose every byte is acknowledged are freed (R320). -/
def freeAcked (una : BitVec 32) (l : List TxEntry) : List TxEntry :=
  l.filter (fun e => !(e.taken && seqLe (e.startSeq + BitVec.ofNat 32 e.wire.length) una))

/-- An acknowledgement in a synchronised state: new bytes, or a duplicate (RFC 5681, RFC 6582). -/
def State.takeAck (s : State) (n : Nat) (g : Segment) : State :=
  let p := s.port n
  let c := p.tcb
  let wnd := g.window * 2 ^ c.sndScale
  if seqLt c.sndUna g.ackNo && seqLe g.ackNo c.sndNxt then
    let k := (g.ackNo - c.sndUna).toNat
    let echo := match c.tsOn, g.tstamp with
      | true, some x => some ((BitVec.ofNat 32 (s.timeNow / 100000) - x.2).toNat)
      | _, _ => none
    let partialAck := match c.recover with
      | some x => !(seqLt x g.ackNo)
      | none => false
    let q := freeAcked g.ackNo p.txq
    let c' := (c.acked g.ackNo k s.minRto echo s.timeNow).window g
    let s := s.modPort n (fun p => { p with tcb := c', txq := q, txDone := p.txDone + (p.txq.length - q.length) })
    if partialAck then s.resend n else s
  else if g.ackNo = c.sndUna ∧ c.sndUna ≠ c.sndNxt ∧ g.data.isEmpty ∧ !g.fin ∧ wnd = c.sndWnd ∧ wnd ≠ 0 then
    let dup := c.dupAcks + 1
    if dup = 3 ∧ c.mayRecover g.ackNo then
      let half := max (c.flight / 2) (2 * c.mss)
      let s := s.modPort n (fun p => { p with tcb := { c with dupAcks := dup, ssthresh := half, cwnd := half + 3 * c.mss, recover := some (c.sndNxt - 1), guard := some (c.sndNxt - 1) } })
      s.resend n
    else
      s.modPort n (fun p => { p with tcb := { c with dupAcks := dup, cwnd := if 3 < dup ∧ c.recover.isSome then c.cwnd + c.mss else c.cwnd } })
  else if g.ackNo = c.sndUna then
    let c' := c.window g
    s.modPort n (fun p => { p with tcb := { c' with rtxCount := if c'.sndWnd = 0 then 0 else c'.rtxCount } })
  else s

/-! ### What arrives in sequence (R303, R306) -/

/-- In-sequence bytes arrive (R303, R306). -/
def State.arriveBytes (s : State) (n : Nat) (d : List Byte) : State :=
  if (s.port n).tls then
    (State.modPort s n (fun p => { p with cipher := p.cipher ++ d })).readRecords n
  else s.modPort n (fun p => { p with stream := p.stream ++ d })

/-! ### Out-of-order ranges (R303) -/

/-- Ranges by their distance from RCV.NXT. -/
def rangesTouch (a b : Nat × List Byte) : Bool := decide (a.1 ≤ b.1 + b.2.length) && decide (b.1 ≤ a.1 + a.2.length)

/-- Two ranges that touch, joined. -/
def joinRanges (a b : Nat × List Byte) : Nat × List Byte :=
  if a.1 ≤ b.1 then (a.1, a.2 ++ b.2.drop (a.1 + a.2.length - b.1)) else (b.1, b.2 ++ a.2.drop (b.1 + b.2.length - a.1))

/-- Adds a range. -/
def addRange : List (Nat × List Byte) → Nat × List Byte → List (Nat × List Byte)
  | [], x => [x]
  | a :: r, x => if rangesTouch a x then addRange r (joinRanges a x) else a :: addRange r x

/-- A segment's data at distance off from RCV.NXT: what is now in sequence, and the ranges that stay held; a fifth range is dropped. -/
def placeData (held : List (Nat × List Byte)) (off : Nat) (d : List Byte) : List Byte × List (Nat × List Byte) :=
  let l := if d.isEmpty then held else addRange held (off, d)
  let l := if 4 < (l.filter (fun x => decide (x.1 ≠ 0))).length then held else l
  match l.find? (fun x => decide (x.1 = 0)) with
  | some x => (x.2, (l.filter (fun y => decide (y.1 ≠ 0))).map (fun y => (y.1 - x.2.length, y.2)))
  | none => ([], l)

/-- Acknowledges every second full segment at once, out-of-order data at once, and leaves the rest to the timer (R303). -/
def State.ackPolicy (s : State) (n : Nat) (now full : Bool) : State :=
  let p := s.port n
  if now || (full && decide (p.tcb.ackDue = 2)) then s.sendAck n
  else s.modPort n (fun p => { p with tcb := { p.tcb with ackDue := if full then 2 else max 1 p.tcb.ackDue } })

/-- The text and FIN of an acceptable segment. -/
def State.takeText (s : State) (n : Nat) (g : Segment) : State :=
  let p := s.port n
  if p.finSeen then (if g.data.isEmpty && !g.fin then s else s.sendAck n)
  else if g.data.isEmpty && !g.fin then s
  else
    let c := p.tcb
    let early := if seqLt g.seqNo c.rcvNxt then (c.rcvNxt - g.seqNo).toNat else 0
    let off := if seqLt g.seqNo c.rcvNxt then 0 else (g.seqNo - c.rcvNxt).toNat
    let d := (g.data.drop early).take (c.rcvWnd - off)
    let whole := decide (d.length + early = g.data.length)
    let held := c.held.map (fun h => ((h.1 - c.rcvNxt).toNat, h.2))
    let (inSeq, rest) := placeData held off d
    let nxt := c.rcvNxt + BitVec.ofNat 32 inSeq.length
    let s := s.modPort n (fun p => { p with tcb := { p.tcb with rcvNxt := nxt, rcvWnd := c.rcvWnd - inSeq.length, held := rest.map (fun r => (nxt + BitVec.ofNat 32 r.1, r.2)) } })
    let s := if p.finRcvd ∨ inSeq = [] then s else s.arriveBytes n inSeq
    if (s.port n).notice = .reset then s
    else if g.fin ∧ whole ∧ g.seqNo + BitVec.ofNat 32 g.data.length = nxt then
      let s := s.modPort n (fun p => { p with finSeen := true, tcb := { p.tcb with rcvNxt := p.tcb.rcvNxt + 1 } })
      let s := if (s.port n).finRcvd then s else s.peerFin n
      (s.sendAck n).closedNotice n
    else (s.ackPolicy n (off ≠ 0 ∨ !held.isEmpty ∨ early ≠ 0) (decide (c.mss ≤ g.data.length))).closedNotice n

/-! ### Segments of a connection (R303, R304) -/

/-- The segment overlaps the receive window (RFC 9293). -/
def Port.acceptable (p : Port) (g : Segment) : Bool :=
  let w := p.tcb.rcvWnd
  let inW (x : BitVec 32) : Bool := decide ((x - p.tcb.rcvNxt).toNat < w)
  if g.seqLen = 0 then (if w = 0 then decide (g.seqNo = p.tcb.rcvNxt) else inW g.seqNo)
  else decide (w ≠ 0) && (inW g.seqNo || inW (g.seqNo + BitVec.ofNat 32 (g.seqLen - 1)))

/-- PAWS (RFC 7323): a connection with timestamps drops a segment without one, or with an older one. -/
def Port.pawsFails (p : Port) (g : Segment) : Bool :=
  p.tcb.tsOn && !g.rst && (match g.tstamp with
    | some x => seqLt x.1 p.tcb.tsRecent
    | none => true)

/-- A valid segment updates TS.Recent and the next hop (R302, R303). -/
def State.noteSegment (s : State) (n mac : Nat) (f : Frame) (g : Segment) : State :=
  s.modPort n (fun p =>
    let ts := match p.tcb.tsOn, g.tstamp with
      | true, some x => if seqLe g.seqNo p.tcb.rcvNxt then x.1 else p.tcb.tsRecent
      | _, _ => p.tcb.tsRecent
    { p with peerMac := f.src, vlan := f.vlan, mac := mac, tcb := { p.tcb with tsRecent := ts } })

/-- The connection of a CLOSED port is still open in TCP: TIME-WAIT, its FIN unacknowledged, or the peer's FIN to come. -/
def Port.lives (p : Port) : Bool :=
  decide (p.notice ≠ .reset) && (p.timeWait || (p.finSent && decide (p.tcb.sndUna ≠ p.tcb.sndNxt)) || !p.finSeen)

/-- A segment of a port in SYN_RCVD (R294). -/
def State.synRcvdSegment (s : State) (n mac : Nat) (f : Frame) (g : Segment) : State :=
  let p := s.port n
  if g.rst then (if p.acceptable g then s.failPort n false else s)
  else if g.syn then (if g.seqNo + 1 = p.tcb.rcvNxt then s.sendSegment n (synAck s p) else s.sendAck n)
  else if !g.ack then s
  else if g.ackNo ≠ p.tcb.sndNxt then s.answerRst mac f g
  else if !p.acceptable g ∨ p.pawsFails g then s.sendAck n
  else
    let s := s.noteSegment n mac f g
    let s := s.modPort n (fun p =>
      { p with state := if p.tls then .handshake else .open,
               tcb := { p.tcb with sndUna := g.ackNo, sndWnd := g.window * 2 ^ p.tcb.sndScale, sndWl1 := g.seqNo, sndWl2 := g.ackNo, rtxCount := 0 } })
    s.takeText n g

/-- A segment of a port in HANDSHAKE, OPEN or CLOSING, or of one whose connection lives on after CLOSED (RFC 9293). With a window of 0 the
acknowledgement of a segment is taken although its text is not. -/
def State.openSegment (s : State) (n mac : Nat) (f : Frame) (g : Segment) : State :=
  let p := s.port n
  if p.pawsFails g then (if g.tstamp.isSome then s.sendAck n else s)
  else if !p.acceptable g then
    (if g.rst then s
    else if p.tcb.rcvWnd = 0 ∧ g.seqNo = p.tcb.rcvNxt ∧ g.ack = true ∧ g.syn = false ∧ seqLe g.ackNo p.tcb.sndNxt then
      let s := s.takeAck n { g with data := [], fin := false }
      if (s.port n).notice = .reset then s else (s.sendAck n).pumpPort n
    else s.sendAck n)
  else if g.rst then
    (if g.seqNo ≠ p.tcb.rcvNxt then s.sendAck n
    else if p.state = .closed then
      let s := s.modPort n (fun p => { p with timeWait := false, finSeen := true, tcb := { p.tcb with sndUna := p.tcb.sndNxt } })
      if p.releaseReq then s.freePort n else s
    else s.failPort n false)
  else if g.syn then s.sendAck n
  else if !g.ack then s
  else if seqLt p.tcb.sndNxt g.ackNo then s.sendAck n
  else
    let s := s.noteSegment n mac f g
    let s := s.takeAck n g
    if (s.port n).notice = .reset then s else (s.takeText n g).pumpPort n

/-- The port whose four-tuple the segment carries (R296, R304). -/
def State.portOf (s : State) (q : Packet) (g : Segment) : Option Nat :=
  (s.ports.find? (fun p => decide (p.2.state ≠ .free) && (p.2.v6 == q.v6) && decide (p.2.laddr = q.dst) && decide (p.2.raddr = q.src) &&
    decide (p.2.lport = g.dport) && decide (p.2.rport = g.sport))).map (·.1)

/-- A segment of bound port n (R303, R304, R350). -/
def State.portSegment (s : State) (n mac : Nat) (f : Frame) (g : Segment) : State :=
  let p := s.port n
  match p.moved, p.away with
  | some (u, k), true => if p.fwdWindow then s.chainOut u (.forwarded u k p.gen mac f) else s.answerRst mac f g
  | _, _ =>
    match p.state with
    | .free => s
    | .synRcvd => s.synRcvdSegment n mac f g
    | .closed => if p.lives then s.openSegment n mac f g else s.answerRst mac f g
    | _ => s.openSegment n mac f g

/-- A TCP segment (R303, R304). -/
def State.tcpSegment (s : State) (mac : Nat) (f : Frame) (q : Packet) (g : Segment) : State :=
  if !g.checksumOk then s
  else
    match s.portOf q g with
    | some n => s.portSegment n mac f g
    | none => if g.syn && !g.ack && !g.rst then s.acceptSyn mac f q g else s.answerRst mac f g

/-! ### Timers (R297, R303) -/

/-- The RTO expires (R303): the segment is sent again with a doubled RTO, or after RTX_MAX times the connection fails; on a
CLOSED port that is its FIN. -/
def State.retransmit (s : State) (n : Nat) : State :=
  let p := s.port n
  let c := p.tcb
  let idle := decide (c.sndUna = c.sndNxt)
  if p.state = .free ∨ p.gone ∨ p.notice = .reset ∨ !s.engineOn then s
  else if idle then
    (match bytesFrom c.sndNxt p.txq with
      | b :: _ =>
        if c.sndWnd = 0 ∧ p.state ≠ .closed then
          let s := s.sendSegment n (mkSegment s p c.sndNxt false false [b])
          s.modPort n (fun p => { p with tcb := { p.tcb with sndNxt := p.tcb.sndNxt + 1 } })
        else s
      | [] => s)
  else if s.rtxMax ≤ c.rtxCount then
    (if p.state = .closed then ((s.event 0x0705 5 n [(2, n)]).sendRst n).modPort n (fun p => { p with tcb := { p.tcb with sndUna := p.tcb.sndNxt } })
    else (s.event 0x0705 5 n [(2, n)]).failPort n (decide (p.state ≠ .synRcvd)))
  else
    let half := max (c.flight / 2) (2 * c.mss)
    let s := s.modPort n (fun p =>
      { p with tcb := { p.tcb with rtxCount := p.tcb.rtxCount + 1, rto := 2 * p.tcb.rto, ssthresh := half, cwnd := p.tcb.mss, dupAcks := 0,
                                   recover := none, guard := some (p.tcb.sndNxt - 1), timed := none } })
    if p.state = .synRcvd then s.sendSegment n (synAck s (s.port n)) else s.resend n

/-- TW_TIME has passed since CLOSED (R297). -/
def State.timeWaitEnds (s : State) (n : Nat) : State :=
  let p := s.port n
  if !p.timeWait then s
  else
    let s := s.modPort n (fun p => { p with timeWait := false })
    if p.releaseReq ∧ !p.fwdWindow then s.freePort n else s

/-- The forwarding window of a moved port ends (R350). -/
def State.forwardEnds (s : State) (n : Nat) : State :=
  let p := s.port n
  if !p.fwdWindow then s
  else
    let s := s.modPort n (fun p => { p with fwdWindow := false })
    if p.releaseReq ∧ !p.timeWait then s.freePort n else s

/-! ### Cutting messages (R309 to R311) -/

/-- What the stream holds at its front. -/
inductive Cut where
  | more
  | reserve (n : Nat)
  | message (skip len room : Nat) (tail : Nat)
  | tooLong (skip len : Nat)
  | badPrefix
  deriving DecidableEq, Repr

/-- A prefixed message with L bytes (framings 1 to 3): reserved on reading the prefix, placed when it is all there. -/
def cutPrefixed (skip len limit have_ : Nat) : Cut :=
  if limit < len then .tooLong skip len else if skip + len ≤ have_ then .message skip len len 0 else .reserve len

/-- The next message of a stream under a CONF word and a ring length (R309, R310, R311). -/
def cutStream (conf : Word) (ring : Nat) (d : List Byte) : Cut :=
  let limit := min (confMaxFrame conf) ring
  let n := d.length
  match confFraming conf with
  | 1 => if n < 2 then .more else cutPrefixed 2 (beValue (d.take 2)) limit n
  | 2 =>
    if n < 4 then .more
    else if (d.take 4).any (fun b => decide (b.toNat < 0x30) || decide (0x39 < b.toNat)) then .badPrefix
    else cutPrefixed 4 ((d.take 4).foldl (fun a b => 10 * a + (b.toNat - 0x30)) 0) limit n
  | 3 => if n < 4 then .more else cutPrefixed 4 (beValue (d.take 4)) limit n
  | 4 =>
    match d.findIdx? (fun b => decide (b = confDelim conf)) with
    | some i => if limit < i then .tooLong 0 (limit + 1) else .message 0 i limit 1
    | none => if limit < n then .tooLong 0 (limit + 1) else if n = 0 then .more else .reserve limit
  | _ => if n = 0 then .more else .message 0 (min n limit) limit 0

/-- FRAME_POLICY on a message that is too long (R311). -/
def State.framePolicy (s : State) (n skip len : Nat) : State :=
  let p := s.port n
  let reset := confReset1 p.conf
  let s := (s.rcount (.peCnt 1)).event 0x0701 5 n [(2, n), (4, len), (1, if reset then 1 else 0)]
  let s := s.modPort n (fun p => { p with policy := p.policy + 1 })
  if reset then s.failPort n true
  else if confFraming p.conf = 4 then s.modPort n (fun p => { p with skipDelim := true, resv := 0 })
  else s.modPort n (fun p => { p with stream := p.stream.drop skip, spanDone := p.spanDone + skip, skip := len, resv := 0 })

/-- A change of CONF takes effect at the boundary (R309). -/
def Port.newConf (p : Port) : Port := { p with conf := p.confNext.getD p.conf, confNext := none }

/-- Bytes to discard: a count, or up to and including DELIM (R311). -/
def Port.dropSkipped (p : Port) : Port :=
  let d := p.stream
  if p.skip ≠ 0 then
    let k := min p.skip d.length
    let p := { p with stream := d.drop k, spanDone := p.spanDone + k, skip := p.skip - k }
    if p.skip = 0 then p.newConf else p
  else if p.skipDelim then
    match d.findIdx? (fun b => decide (b = confDelim p.conf)) with
    | some i => ({ p with stream := d.drop (i + 1), spanDone := p.spanDone + i + 1, skipDelim := false } : Port).newConf
    | none => { p with stream := [], spanDone := p.spanDone + d.length }
  else p

/-- A descriptor is queued (R298, R310): `used` stream bytes are gone, and the message stands at `off`. -/
def State.queueMessage (s : State) (n off len used : Nat) (hs : Bool) : State :=
  let s := s.modPort n (fun p =>
    let d : RxDesc := { len := len, off := off, num := p.msgsIn % 65536, lead := p.spanDone, span := p.spanDone + used, hs := hs, freed := off + len }
    let q := { p with rxq := p.rxq ++ [d], wOff := if len = 0 then p.wOff else off + len, resv := 0, spanDone := 0, stream := p.stream.drop used,
                      hsQueue := if hs then p.hsQueue.drop 1 else p.hsQueue, msgsIn := p.msgsIn + 1, bytesIn := p.bytesIn + len }
    if hs then q else q.newConf)
  s.offerPort n

/-- Places a message of given bytes, once the ring has room (R310, R325); `room` is what the reservation asks for. -/
def State.placeMessage (s : State) (n room used : Nat) (d : List Byte) (hs : Bool) : State :=
  let p := s.port n
  if d.isEmpty then s.queueMessage n p.wOff 0 used hs
  else
    match p.place room with
    | none => s
    | some off =>
      match s.dmaCheck p p.rxbuf (p.rxbuf.base + off) d.length true with
      | (s, .wait) => s
      | (s, .error c a) => s.descriptorError n c a
      | (s, .ok segs) => (dmaWrite s (chunk segs d)).queueMessage n off d.length used hs

/-- A reservation is made when its whole range is free (R310). -/
def State.reserveRing (s : State) (n room : Nat) : State :=
  let p := s.port n
  if p.resv = room then s
  else
    match p.place room with
    | some _ => s.modPort n (fun p => { p with resv := room })
    | none => s

/-- Reception is stopped before whole records, which a PCTL KEYS still releases (R308, R321). -/
def Port.keysAwaited (p : Port) : Bool := p.rxStopped && !p.cipher.isEmpty && decide (p.state ≠ .closed)

/-- What is left of a stream that cannot be cut further after the peer's FIN is discarded (R297). -/
def State.truncate (s : State) (n : Nat) : State :=
  let p := s.port n
  if !p.finRcvd ∨ p.keysAwaited then s
  else
    let s := if p.stream.isEmpty && p.cipher.isEmpty then s else (s.rcount (.peCnt 2)).modPort n (fun p => { p with stream := [], cipher := [], resv := 0, trunc := p.trunc + 1 })
    s.closedNotice n

/-- A message in HANDSHAKE form, longer than MAX_FRAME only by its type byte, is placed; a reservation for a later message is given up. -/
def State.placeHandshake (s : State) (n : Nat) : State :=
  let p := s.port n
  match p.hsQueue with
  | [] => s.truncate n
  | m :: _ =>
    if p.ring < m.length then
      (s.framePolicy n 0 m.length).modPort n (fun p => { p with hsQueue := p.hsQueue.drop 1, skip := 0, skipDelim := false })
    else (State.modPort s n (fun p => { p with resv := 0 })).placeMessage n m.length 0 m true

/-- MESSAGE_DELIMIT: the next message of port n is cut and placed, or space is reserved for it (R309 to R311). -/
def State.delimit (s : State) (n : Nat) : State :=
  if !s.engineOn ∨ (s.port n).gone ∨ (s.port n).notice ≠ .none ∨ (s.port n).state = .free ∨ (s.port n).state = .synRcvd then s
  else
    let s := s.modPort n Port.dropSkipped
    let p := s.port n
    if 16 ≤ p.rxq.length then s
    else if p.state = .handshake ∨ p.skip ≠ 0 ∨ p.skipDelim then s.placeHandshake n
    else
      match cutStream p.conf p.ring p.stream with
      | .more => s.placeHandshake n
      | .reserve room => if p.hsQueue.isEmpty then (s.reserveRing n room).truncate n else s.placeHandshake n
      | .tooLong skip len => s.framePolicy n skip len
      | .badPrefix =>
        (s.event 0x0706 5 n [(2, n), (4, leValue (p.stream.take 4))]).failPort n true
      | .message skip len room tail =>
        if len = 0 ∧ confDropEmpty p.conf then
          s.modPort n (fun p => ({ p with stream := p.stream.drop (skip + tail), spanDone := p.spanDone + skip + tail, resv := 0 } : Port).newConf)
        else s.placeMessage n room (skip + len + tail) ((p.stream.drop skip).take len) false

end Sys2Proof.Machine
end

