-- ==== Sys2Proof/Machine/Network.lean ====
section
/-! DEFINITION. The commands of the network interface: frames, message delimiting, timers, raw rings and key slots (R302 to R310, R329, R330,
R348, R350). -/

namespace Sys2Proof.Machine

/-! ### Frames (R302, R304) -/

/-- The destination address is the MAC's own, broadcast, or 33-33-xx-xx-xx-xx (R302). -/
def State.forMac (s : State) (mac : Nat) (a : BitVec 48) : Bool :=
  decide (a = (s.rget (.macAddr mac)).setWidth 48) || decide (a = BitVec.allOnes 48) || decide (a.toNat / 2 ^ 32 = 0x3333)

/-- Frames that R302 drops at the Ethernet layer. A frame's length includes its FCS of 4 bytes. -/
def State.dropsFrame (s : State) (mac : Nat) (f : Frame) : Bool :=
  f.secondTag || f.lengthField || decide ((s.rget (.macMtu mac)).toNat + 22 < f.octets + 4) || !s.forMac mac f.dst

/-- A frame that has passed the Ethernet layer: the IP layer, then TCP or the raw ring (R302, R304). -/
def State.frameIp (s : State) (mac : Nat) (f : Frame) : State :=
  match f.packet with
  | none => s.rawReceive mac f.vlan f.raw
  | some q =>
    if q.fragment then s.rcount (.macCnt mac 3)
    else if !q.headerOk ∨ q.routing then s.rcount (.macCnt mac 2)
    else
      match q.payload with
      | .other => s.rawReceive mac f.vlan f.raw
      | .tcp g => s.tcpSegment mac f q g

/-- A MAC with its link up receives a frame (R302, R331). -/
def State.frame (s : State) (mac : Nat) (f : Frame) : State :=
  if !(s.rget (.macCtrl mac)).getLsbD 2 then s
  else
    let s := s.active (88 + mac / 2) 1 (blocks64 (f.octets + 4))
    if !f.fcsOk then s.rcount (.macCnt mac 1)
    else
      let s := s.rcount (.macCnt mac 0)
      if !s.engineOn ∨ s.dropsFrame mac f then s.rcount (.macCnt mac 2) else s.frameIp mac f

/-- ETHERNET_FRAME_RECEIVE (R302). -/
def execEthernetFrameReceive (mac : Nat) (f : Frame) (s : State) : Result State := onClocked (fun s => (s.frame mac f).after) s

/-- MESSAGE_DELIMIT (R310). -/
def execMessageDelimit (port : Nat) (s : State) : Result State := onClocked (fun s => ((s.delimit port).windowUpdate port).after) s

/-! ### Timers (R297, R303) -/

/-- RETRANSMISSION_TIMEOUT (R303). -/
def execRetransmissionTimeout (port : Nat) (s : State) : Result State := onClocked (fun s => s.retransmit port) s

/-- ACK_TIMER_EXPIRY: data unacknowledged for 1 ms is acknowledged (R303). -/
def execAckTimerExpiry (port : Nat) (s : State) : Result State :=
  onClocked (fun s => if (s.port port).tcb.ackDue = 0 ∨ !s.engineOn then s else s.sendAck port) s

/-- TIME_WAIT_EXPIRY (R297). -/
def execTimeWaitExpiry (port : Nat) (s : State) : Result State := onClocked (fun s => s.timeWaitEnds port) s

/-! ### Forwarding after a handover (R348, R350) -/

/-- FORWARDED_FRAME: the frame's segment is processed for the port, or dropped for a stale generation (R348);
while PE_CTRL.EN is 0 it is dropped (R304). -/
def State.forwardedFrame (s : State) (port : Nat) (gen : BitVec 16) (mac : Nat) (f : Frame) : State :=
  if !s.engineOn then s
  else if (s.port port).gen ≠ gen then s.rcount (.peCnt 6)
  else
    match f.packet with
    | some q =>
      (match q.payload with
        | .tcp g => if g.checksumOk ∧ s.portOf q g = some port then s.portSegment port mac f g else s
        | .other => s)
    | none => s
/-- FORWARDED_FRAME (R348). -/
def execForwardedFrame (port : Nat) (gen : BitVec 16) (mac : Nat) (f : Frame) (s : State) : Result State :=
  onClocked (fun s => (s.forwardedFrame port gen mac f).after) s

/-- FORWARD_WINDOW_EXPIRY (R350). -/
def execForwardWindowExpiry (port : Nat) (s : State) : Result State := onClocked (fun s => s.forwardEnds port) s

/-! ### Raw rings and key slots (R307, R329, R330) -/

/-- RAWTX_TAIL_WRITE (R329). -/
def execRawtxTailWrite (m : Master) (mac : Nat) (value : Word) (s : State) : Result State := writeCommand m (.rawTail true mac) value s

/-- RAWRX_TAIL_WRITE (R330). -/
def execRawrxTailWrite (m : Master) (mac : Nat) (value : Word) (s : State) : Result State := writeCommand m (.rawTail false mac) value s

/-- KCMD_INSTALL (R307). -/
def execKcmdInstall (m : Master) (s : State) : Result State := writeCommand m .kcmd 1 s

/-- KCMD_ERASE (R307). -/
def execKcmdErase (m : Master) (s : State) : Result State := writeCommand m .kcmd 2 s

end Sys2Proof.Machine
end

