-- ==== Sys2Proof/Machine/SudonCmds.lean ====
section
/-! DEFINITION. The commands of the Sudon chain: links, enumeration, probes, takeover and handover (R334 to R357). -/

namespace Sys2Proof.Machine

/-- FLIT_RECEIVE (R335). -/
def execFlitReceive (link : Link) (flit : ArrivingFlit) (s : State) : Result State :=
  onClocked (fun s => (s.flit link flit.bytes flit.dest).after) s

/-- LINK_IDLE_TIMEOUT: no valid flit for 1 µs (R335). -/
def execLinkIdleTimeout (link : Link) (s : State) : Result State := onClocked (fun s => (s.linkDown link).after) s

/-- LINK_TRAINING_LOST (R335). -/
def execLinkTrainingLost (link : Link) (s : State) : Result State := onClocked (fun s => (s.linkDown link).after) s

/-- LINK_RETRAIN: every 1 ms, on the lanes that are good (R335). -/
def execLinkRetrain (link : Link) (goodLanes : Nat) (neighbour : Option (BitVec 10)) (s : State) : Result State :=
  onClocked (fun s => (s.linkUpAgain link goodLanes neighbour).after) s

/-- Once enumeration is over, so is step 6 of boot (R339, R421). -/
def State.enumerated (s : State) : State := if s.sudon.enumDone then s.step6Done else s

/-- ENUMERATION_TOKEN (R339). -/
def execEnumerationToken (token : Token) (s : State) : Result State :=
  onChain (fun s => ((s.tokenArrives token).enumerated).after) s

/-- ENUMERATION_TOKEN_TIMEOUT (R339). -/
def execEnumerationTokenTimeout (s : State) : Result State := onClocked (fun s => s.tokenTimeout.enumerated) s

/-- POSITION_LIST (R339, R341). -/
def execPositionList (ring : BitVec 4) (order : List (BitVec 6)) (closed : Bool) (s : State) : Result State :=
  onChain (fun s => (s.listArrives ring order closed).enumerated.after) s

/-- ADDRESS_REQUEST (R341). -/
def execAddressRequest (link : Link) (s : State) : Result State := onChain (fun s => s.addressAsked link) s

/-- ADDRESS_TIMEOUT: the unit stays without an address, and boot goes on (R340, R421). -/
def execAddressTimeout (s : State) : Result State := onClocked (fun s => s.addressTimeout.enumerated) s

/-- JOIN_ANSWER (R341). -/
def execJoinAnswer (link : Link) (ring : BitVec 4) (position : BitVec 6) (s : State) : Result State :=
  onChain (fun s => s.joinAnswered link ring position) s

/-- PROBE (R352). -/
def execProbe (origin target : BitVec 10) (via : Link) (s : State) : Result State := onChain (fun s => s.probed origin target via) s

/-- What a probe of the neighbour on link l ends in (R352). -/
def State.probeEnds (s : State) (l : Link) (reached : Bool) : State :=
  match (s.link l).probing with
  | none => s
  | some u => if reached then s.linkLossOnly l else s.unitLost l u

/-- PROBE_ANSWER (R352). -/
def execProbeAnswer (link : Link) (reached : Bool) (s : State) : Result State := onChain (fun s => (s.probeEnds link reached).after) s

/-- PROBE_TIMEOUT (R352). -/
def execProbeTimeout (link : Link) (s : State) : Result State := onClocked (fun s => (s.probeEnds link false).after) s

/-- TAKE (R355). -/
def execTake (m : Master) (s : State) : Result State := writeCommand m .sdCmd 1 s

/-- TAKE_WAIT_EXPIRY: the image is loaded and the journal replayed (R355). -/
def execTakeWaitExpiry (s : State) : Result State := onClocked State.takeLoads s

/-- TAKEOVER_COMPLETE (R355). -/
def execTakeoverComplete (s : State) : Result State := onClocked State.takeDone s

/-- HO_START (R349). -/
def execHoStart (m : Master) (s : State) : Result State := writeCommand m .sdCmd 2 s

/-- HANDOVER_RESERVE (R349 step 1). -/
def execHandoverReserve (r : Reservation) (s : State) : Result State := onChain (fun s => s.hoReserve r) s

/-- HANDOVER_RESERVE_ANSWER (R349). -/
def execHandoverReserveAnswer (a : ReserveReply) (s : State) : Result State :=
  onChain (fun s => (s.hoAnswer a.about.partition a.about.object a.about.gen a.answer).after) s

/-- HANDOVER_TRANSFER (R349 step 5). -/
def execHandoverTransfer (x : Transfer) (s : State) : Result State := onChain (fun s => (s.hoArrive x).after) s

/-- HANDOVER_ACK (R349 step 6). -/
def execHandoverAck (about : HandoverName) (s : State) : Result State :=
  onChain (fun s => (s.hoAcked about.partition about.object about.gen).after) s

/-- HANDOVER_TIMEOUT (R351). -/
def execHandoverTimeout (s : State) : Result State := onClocked (fun s => s.hoTimeout.after) s

end Sys2Proof.Machine
end

