-- ==== Sys2Proof/Machine/UnitCmds.lean ====
section
/-! DEFINITION. The commands of unit stops and clocks (R23, R377), Stencil gates (R368, R370), Bellows (R376 to R394), the calibration store (R396),
the recorder (R405 to R409), resets and boot (R417 to R434, R446, R451), links, and a plain register write (R10). -/

namespace Sys2Proof.Machine

/-! ### Unit stops and clocks -/

/-- BRIDGE_FAILURE (R23). -/
def execBridgeFailure (direction : Bool) (s : State) : Result State := onClocked (fun s => s.bridgeFails direction) s
/-- PLL_LOCK_LOSS (R377). -/
def execPllLockLoss (refclkLost : Bool) (s : State) : Result State := onPowered (fun s => s.pllLost refclkLost) s
/-- ETHREF_LOSS (R377). -/
def execEthrefLoss (s : State) : Result State := onPowered State.ethrefLost s
/-- ETHREF_RESTORE (R377). -/
def execEthrefRestore (s : State) : Result State := onPowered State.ethrefBack s

/-! ### Stencil gates -/

/-- GATE_SYNC (R368). -/
def execGateSync (m : Master) (gate : Nat) (s : State) : Result State := writeCommand m (.gateSync gate) 1 s
/-- GATE_SYNC_COMPLETE (R368). -/
def execGateSyncComplete (gate : Nat) (s : State) : Result State := onPowered (fun s => s.syncDone gate) s
/-- RATTR_WRITE (R370). -/
def execRattrWrite (m : Master) (gate region : Nat) (value : Word) (s : State) : Result State := writeCommand m (.gAttr gate region) value s

/-! ### Bellows, which runs on the SVC clock and so after THERMTRIP too (R375, R390) -/

/-- LEDGER_TICK (R386). -/
def execLedgerTick (a : TickInput) (s : State) : Result State := onPowered (fun s => s.ledgerTick a) s
/-- THERMAL_CAP_LIFT (R390). -/
def execThermalCapLift (s : State) : Result State := onPowered State.liftCap s
/-- PLAN (R387). -/
def execPlan (tpp : List Nat) (s : State) : Result State := onPowered (fun s => s.formPlan tpp) s
/-- PMBUS_CORRECTION (R383). -/
def execPmbusCorrection (r : PmbusReading) (s : State) : Result State := onPowered (fun s => s.pmbus r) s
/-- VR_SETTLE_EXPIRY (R376). -/
def execVrSettleExpiry (s : State) : Result State := onPowered State.settled s
/-- CLOCK_GATE (R380). -/
def execClockGate (tile : Nat) (s : State) : Result State := onClocked (fun s => s.gateClock tile) s
/-- RETENTION_OFF_EXPIRY (R380). -/
def execRetentionOffExpiry (tile : Nat) (s : State) : Result State := onClocked (fun s => s.tileOff tile) s
/-- CRYPTO_RETENTION (R379). -/
def execCryptoRetention (engine : Nat) (s : State) : Result State := onClocked (fun s => s.cryptoIdle engine) s
/-- DOMAIN_WAKE_COMPLETE (R379). -/
def execDomainWakeComplete (domain : Nat) (s : State) : Result State := onClocked (fun s => (s.woken domain).after) s
/-- DOMCTL_WRITE (R394). -/
def execDomctlWrite (m : Master) (domain : Nat) (value : Word) (s : State) : Result State := writeCommand m (.domctl domain) value s

/-! ### Calibration store -/

/-- CAL_KEY_WRITE (R396). -/
def execCalKeyWrite (m : Master) (value : Word) (s : State) : Result State := writeCommand m .calKey value s
/-- CAL_CMD_WRITE (R396). -/
def execCalCmdWrite (m : Master) (value : Word) (s : State) : Result State := writeCommand m .calCmd value s
/-- CAL_REWRITE_COMPLETE (R396). -/
def execCalRewriteComplete (verified : Bool) (s : State) : Result State := onPowered (fun s => s.calRewritten verified) s

/-! ### Recorder -/

/-- EVENT_RECORD_WRITE: one queued event (R405). The recorder lies in VDD_AON, so it works in every reset (R399). -/
def execEventRecordWrite (s : State) : Result State := .next s.writeRecord
/-- RATE_WINDOW_START (R406). -/
def execRateWindowStart (s : State) : Result State := .next s.newWindow
/-- REC_CURSOR_WRITE (R409). -/
def execRecCursorWrite (m : Master) (value : Word) (s : State) : Result State := writeCommand m .recCursor value s
/-- REC_WINDOW_READ: the read that returns byte 31, of 64 bits or of the upper 32 (R409). -/
def execRecWindowRead (m : Master) (wide : Bool) (s : State) : Result State :=
  onPowered (fun s => (s.busRead m ((RName.recWindow 3).addr + (if wide then 0 else 4)) (if wide then 8 else 4)).1) s
/-- VDBG_AUTH_WRITE (R414). -/
def execVdbgAuthWrite (m : Master) (value : Word) (s : State) : Result State := writeCommand m .vdbgAuth value s

/-! ### Resets -/

/-- COLD_RESET: PORST_N rises (R417). -/
def execColdReset (straps : Straps) (s : State) : Result State := .next (s.coldReset straps)
/-- WARM_RESET (R417). -/
def execWarmReset (s : State) : Result State := .next s.warmReset
/-- PORST_N_ASSERT (R417). -/
def execPorstNAssert (s : State) : Result State := .next s.porstFalls
/-- VDD_AON_POWER_UP (R399). -/
def execVddAonPowerUp (s : State) : Result State := .next s.aonPowerUp
/-- RAIL_LOSS (R446). -/
def execRailLoss (aon : Bool) (s : State) : Result State := .next (s.railLost aon)

/-! ### Boot -/

/-- LINK_TRAINING_COMPLETE (R421). -/
def execLinkTrainingComplete (l : Trained) (s : State) : Result State := onPowered (fun s => (s.trained l).after) s
/-- DDR5_TRAINING_COMPLETE (R421, R422). -/
def execDdr5TrainingComplete (channels : List ChannelResult) (s : State) : Result State := onPowered (fun s => s.ddrTrained channels) s
/-- DRAM_INIT_COMPLETE (R422). -/
def execDramInitComplete (s : State) : Result State := onPowered State.dramInit s
/-- IMAGE_READ_COMPLETE (R427). -/
def execImageReadComplete (header body : List Byte) (s : State) : Result State := onPowered (fun s => s.imageRead header body) s

/-! ### Mailbox, interrupts to the host, links -/

/-- MB_H2U_DOORBELL: the host writes 1 (R428). -/
def execMbH2uDoorbell (s : State) : Result State := writeCommand .host .mbH2uDb 1 s
/-- MB_U2H_DOORBELL: a master of the unit writes 1 (R428). -/
def execMbU2hDoorbell (m : Master) (s : State) : Result State := writeCommand m .mbU2hDb 1 s
/-- HOST_IRQ_WRITE (R428). -/
def execHostIrqWrite (m : Master) (value : Word) (s : State) : Result State := writeCommand m .hostIrq value s
/-- EP_PERST (R451). -/
def execEpPerst (s : State) : Result State := .next s.epReset
/-- ROOT_PORT_LINK_UP (R434): tail requests that waited for it are answered (R241). -/
def execRootPortLinkUp (port speed width : Nat) (classCode : BitVec 24) (version : BitVec 32) (s : State) : Result State :=
  onClocked (fun s => (s.rootPortUp port speed width classCode version).answerTailRequests) s
/-- ROOT_PORT_LINK_DOWN (R434). -/
def execRootPortLinkDown (port : Nat) (s : State) : Result State := onClocked (fun s => (s.rootPortDown port).after) s
/-- MAC_LINK_UP (R302): a MAC that is off, or without ETHREF, trains no link. -/
def execMacLinkUp (mac : Nat) (s : State) : Result State :=
  onClocked (fun s => if s.rfield (.macCtrl mac) 0 2 = 0 ∨ s.bellows.etherLost then s else s.macLink mac true) s
/-- MAC_LINK_DOWN (R329). -/
def execMacLinkDown (mac : Nat) (s : State) : Result State := onClocked (fun s => s.macLink mac false) s

/-! ### Registers -/

/-- REGISTER_WRITE: a write to a 0x3F00 block by any master, of any width (R10, R11, R12). -/
def execRegisterWrite (m : Master) (addr width : Nat) (value : Word) (s : State) : Result State :=
  onPowered (fun s => if decide (mmioBase ≤ addr) && decide (addr < mmioBase + 0x4000000) then ((s.masterWrite m addr (leBytes width value.toNat)).1).after else s) s

end Sys2Proof.Machine
end

