-- ==== Sys2Proof/Machine/Dispatch.lean ====
section
/-! DEFINITION. One arm for each command. -/

namespace Sys2Proof.Machine

def exec (i : Instr) (s : State) : Host.Outcome State Fault Refusal :=
  match i with
  -- Integer register operations (R99, R100)
  | .add t rd rs1 rs2 => Sys2Proof.Machine.execAdd t rd rs1 rs2 s
  | .sub t rd rs1 rs2 => Sys2Proof.Machine.execSub t rd rs1 rs2 s
  | .and t rd rs1 rs2 => Sys2Proof.Machine.execAnd t rd rs1 rs2 s
  | .or t rd rs1 rs2 => Sys2Proof.Machine.execOr t rd rs1 rs2 s
  | .xor t rd rs1 rs2 => Sys2Proof.Machine.execXor t rd rs1 rs2 s
  | .andn t rd rs1 rs2 => Sys2Proof.Machine.execAndn t rd rs1 rs2 s
  | .sll t rd rs1 rs2 => Sys2Proof.Machine.execSll t rd rs1 rs2 s
  | .srl t rd rs1 rs2 => Sys2Proof.Machine.execSrl t rd rs1 rs2 s
  | .sra t rd rs1 rs2 => Sys2Proof.Machine.execSra t rd rs1 rs2 s
  | .seq t rd rs1 rs2 => Sys2Proof.Machine.execSeq t rd rs1 rs2 s
  | .sne t rd rs1 rs2 => Sys2Proof.Machine.execSne t rd rs1 rs2 s
  | .slt t rd rs1 rs2 => Sys2Proof.Machine.execSlt t rd rs1 rs2 s
  | .sltu t rd rs1 rs2 => Sys2Proof.Machine.execSltu t rd rs1 rs2 s
  | .sle t rd rs1 rs2 => Sys2Proof.Machine.execSle t rd rs1 rs2 s
  | .sleu t rd rs1 rs2 => Sys2Proof.Machine.execSleu t rd rs1 rs2 s
  | .min t rd rs1 rs2 => Sys2Proof.Machine.execMin t rd rs1 rs2 s
  | .max t rd rs1 rs2 => Sys2Proof.Machine.execMax t rd rs1 rs2 s
  | .mul t rd rs1 rs2 => Sys2Proof.Machine.execMul t rd rs1 rs2 s
  | .mulh t rd rs1 rs2 => Sys2Proof.Machine.execMulh t rd rs1 rs2 s
  | .mulhu t rd rs1 rs2 => Sys2Proof.Machine.execMulhu t rd rs1 rs2 s
  | .div t rd rs1 rs2 => Sys2Proof.Machine.execDiv t rd rs1 rs2 s
  | .divu t rd rs1 rs2 => Sys2Proof.Machine.execDivu t rd rs1 rs2 s
  | .rem t rd rs1 rs2 => Sys2Proof.Machine.execRem t rd rs1 rs2 s
  | .remu t rd rs1 rs2 => Sys2Proof.Machine.execRemu t rd rs1 rs2 s
  -- Immediate operations (R101, R102, R109)
  | .addi t rd rs1 imm => Sys2Proof.Machine.execAddi t rd rs1 imm s
  | .andi t rd rs1 imm => Sys2Proof.Machine.execAndi t rd rs1 imm s
  | .ori t rd rs1 imm => Sys2Proof.Machine.execOri t rd rs1 imm s
  | .xori t rd rs1 imm => Sys2Proof.Machine.execXori t rd rs1 imm s
  | .slti t rd rs1 imm => Sys2Proof.Machine.execSlti t rd rs1 imm s
  | .sltiu t rd rs1 imm => Sys2Proof.Machine.execSltiu t rd rs1 imm s
  | .slli t rd rs1 sh => Sys2Proof.Machine.execSlli t rd rs1 sh s
  | .srli t rd rs1 sh => Sys2Proof.Machine.execSrli t rd rs1 sh s
  | .srai t rd rs1 sh => Sys2Proof.Machine.execSrai t rd rs1 sh s
  | .liu t rd imm => Sys2Proof.Machine.execLiu t rd imm s
  | .cpcrel t rd imm => Sys2Proof.Machine.execCpcrel t rd imm s
  -- Branches, jumps, calls and returns (R103, R104)
  | .bz t rt off => Sys2Proof.Machine.execBz t rt off s
  | .bnz t rt off => Sys2Proof.Machine.execBnz t rt off s
  | .j t off => Sys2Proof.Machine.execJ t off s
  | .call t off => Sys2Proof.Machine.execCall t off s
  | .jr t rs1 => Sys2Proof.Machine.execJr t rs1 s
  | .callr t rs1 => Sys2Proof.Machine.execCallr t rs1 s
  | .ret t => Sys2Proof.Machine.execRet t s
  | .rspop t rd => Sys2Proof.Machine.execRspop t rd s
  | .rspush t rs1 lv => Sys2Proof.Machine.execRspush t rs1 lv s
  -- Capability operations (R46, R57, R105 to R109)
  | .ccopy t rd rs1 => Sys2Proof.Machine.execCcopy t rd rs1 s
  | .cpoint t rd rs1 rs2 => Sys2Proof.Machine.execCpoint t rd rs1 rs2 s
  | .cstep t rd rs1 rs2 => Sys2Proof.Machine.execCstep t rd rs1 rs2 s
  | .cstepi t rd rs1 imm => Sys2Proof.Machine.execCstepi t rd rs1 imm s
  | .cnarrow t rd rs1 rs2 => Sys2Proof.Machine.execCnarrow t rd rs1 rs2 s
  | .cnarrowX t rd rs1 rs2 => Sys2Proof.Machine.execCnarrowX t rd rs1 rs2 s
  | .cdrop t rd rs1 rs2 => Sys2Proof.Machine.execCdrop t rd rs1 rs2 s
  | .cdropi t rd rs1 imm => Sys2Proof.Machine.execCdropi t rd rs1 imm s
  | .ctint t rd rs1 rs2 => Sys2Proof.Machine.execCtint t rd rs1 rs2 s
  | .cwrap t rd rs1 rs2 => Sys2Proof.Machine.execCwrap t rd rs1 rs2 s
  | .cunwrap t rd rs1 rs2 => Sys2Proof.Machine.execCunwrap t rd rs1 rs2 s
  | .cfitlen t rd rs1 => Sys2Proof.Machine.execCfitlen t rd rs1 s
  | .cfitmask t rd rs1 => Sys2Proof.Machine.execCfitmask t rd rs1 s
  | .cpaint t rs1 rs2 => Sys2Proof.Machine.execCpaint t rs1 rs2 s
  | .cpaintL t rs1 rs2 => Sys2Proof.Machine.execCpaintL t rs1 rs2 s
  | .crdbase t rd rs1 => Sys2Proof.Machine.execCrdbase t rd rs1 s
  | .crdlen t rd rs1 => Sys2Proof.Machine.execCrdlen t rd rs1 s
  | .crdrt t rd rs1 => Sys2Proof.Machine.execCrdrt t rd rs1 s
  | .crdclr t rd rs1 => Sys2Proof.Machine.execCrdclr t rd rs1 s
  | .crdseal t rd rs1 => Sys2Proof.Machine.execCrdseal t rd rs1 s
  | .crdtag t rd rs1 => Sys2Proof.Machine.execCrdtag t rd rs1 s
  | .crdcur t rd rs1 => Sys2Proof.Machine.execCrdcur t rd rs1 s
  -- Loads, stores, prefetch (R110 to R113); 'hit' says whether the data comes at once (R69)
  | .lb t rd rs1 imm hit => Sys2Proof.Machine.execLb t rd rs1 imm hit s
  | .lbu t rd rs1 imm hit => Sys2Proof.Machine.execLbu t rd rs1 imm hit s
  | .lh t rd rs1 imm hit => Sys2Proof.Machine.execLh t rd rs1 imm hit s
  | .lhu t rd rs1 imm hit => Sys2Proof.Machine.execLhu t rd rs1 imm hit s
  | .lw t rd rs1 imm hit => Sys2Proof.Machine.execLw t rd rs1 imm hit s
  | .lwu t rd rs1 imm hit => Sys2Proof.Machine.execLwu t rd rs1 imm hit s
  | .ld t rd rs1 imm hit => Sys2Proof.Machine.execLd t rd rs1 imm hit s
  | .lq t rd rs1 imm hit => Sys2Proof.Machine.execLq t rd rs1 imm hit s
  | .lc t rd rs1 imm hit => Sys2Proof.Machine.execLc t rd rs1 imm hit s
  | .pref t rs1 imm writable => Sys2Proof.Machine.execPref t rs1 imm writable s
  | .sb t rs2 rs1 imm => Sys2Proof.Machine.execSb t rs2 rs1 imm s
  | .sh t rs2 rs1 imm => Sys2Proof.Machine.execSh t rs2 rs1 imm s
  | .sw t rs2 rs1 imm => Sys2Proof.Machine.execSw t rs2 rs1 imm s
  | .sd t rs2 rs1 imm => Sys2Proof.Machine.execSd t rs2 rs1 imm s
  | .sq t rs2 rs1 imm => Sys2Proof.Machine.execSq t rs2 rs1 imm s
  | .sc t rs2 rs1 imm => Sys2Proof.Machine.execSc t rs2 rs1 imm s
  -- Atomics (R114, R175)
  | .atomicSwap t rd rs1 rs2 aq rl size hit => Sys2Proof.Machine.execAtomicSwap t rd rs1 rs2 aq rl size hit s
  | .atomicAdd t rd rs1 rs2 aq rl size hit => Sys2Proof.Machine.execAtomicAdd t rd rs1 rs2 aq rl size hit s
  | .atomicAnd t rd rs1 rs2 aq rl size hit => Sys2Proof.Machine.execAtomicAnd t rd rs1 rs2 aq rl size hit s
  | .atomicOr t rd rs1 rs2 aq rl size hit => Sys2Proof.Machine.execAtomicOr t rd rs1 rs2 aq rl size hit s
  | .atomicXor t rd rs1 rs2 aq rl size hit => Sys2Proof.Machine.execAtomicXor t rd rs1 rs2 aq rl size hit s
  | .atomicMax t rd rs1 rs2 aq rl size hit => Sys2Proof.Machine.execAtomicMax t rd rs1 rs2 aq rl size hit s
  | .atomicMin t rd rs1 rs2 aq rl size hit => Sys2Proof.Machine.execAtomicMin t rd rs1 rs2 aq rl size hit s
  | .atomicMaxu t rd rs1 rs2 aq rl size hit => Sys2Proof.Machine.execAtomicMaxu t rd rs1 rs2 aq rl size hit s
  | .atomicMinu t rd rs1 rs2 aq rl size hit => Sys2Proof.Machine.execAtomicMinu t rd rs1 rs2 aq rl size hit s
  | .cas t rd rs1 rs2 aq rl size hit => Sys2Proof.Machine.execCas t rd rs1 rs2 aq rl size hit s
  -- Fences, system instructions, control registers (R115 to R121)
  | .fence t mask => Sys2Proof.Machine.execFence t mask s
  | .sync t => Sys2Proof.Machine.execSync t s
  | .syncI t => Sys2Proof.Machine.execSyncI t s
  | .sysc t => Sys2Proof.Machine.execSysc t s
  | .wcall t rs1 => Sys2Proof.Machine.execWcall t rs1 s
  | .eret t => Sys2Proof.Machine.execEret t s
  | .brk t => Sys2Proof.Machine.execBrk t s
  | .tstart t rd rs1 rs2 => Sys2Proof.Machine.execTstart t rd rs1 rs2 s
  | .tstartAnswer caller => Sys2Proof.Machine.execTstartAnswer caller s
  | .texit t => Sys2Proof.Machine.execTexit t s
  | .invalV t rs1 => Sys2Proof.Machine.execInvalV t rs1 s
  | .invalVAcknowledge t who => Sys2Proof.Machine.execInvalVAcknowledge t who s
  | .crr t rd cr => Sys2Proof.Machine.execCrr t rd cr s
  | .crw t cr rs1 => Sys2Proof.Machine.execCrw t cr rs1 s
  -- Money (R134, R138)
  | .madd t rd rs1 rs2 scale round te => Sys2Proof.Machine.execMadd t rd rs1 rs2 scale round te s
  | .msub t rd rs1 rs2 scale round te => Sys2Proof.Machine.execMsub t rd rs1 rs2 scale round te s
  | .mmul t rd rs1 rs2 scale round te => Sys2Proof.Machine.execMmul t rd rs1 rs2 scale round te s
  | .mdiv t rd rs1 rs2 scale round te => Sys2Proof.Machine.execMdiv t rd rs1 rs2 scale round te s
  | .mresc t rd rs1 rs2 scale round te => Sys2Proof.Machine.execMresc t rd rs1 rs2 scale round te s
  | .mneg t rd rs1 te => Sys2Proof.Machine.execMneg t rd rs1 te s
  | .mabs t rd rs1 te => Sys2Proof.Machine.execMabs t rd rs1 te s
  | .mceq t rd rs1 rs2 te => Sys2Proof.Machine.execMceq t rd rs1 rs2 te s
  | .mclt t rd rs1 rs2 te => Sys2Proof.Machine.execMclt t rd rs1 rs2 te s
  | .mcle t rd rs1 rs2 te => Sys2Proof.Machine.execMcle t rd rs1 rs2 te s
  | .misv t rd rs1 => Sys2Proof.Machine.execMisv t rd rs1 s
  | .ma2l t rd rs1 rs2 n te => Sys2Proof.Machine.execMa2l t rd rs1 rs2 n te s
  | .ml2a t rd rs1 rs2 n te => Sys2Proof.Machine.execMl2a t rd rs1 rs2 n te s
  | .mlget t rd rs1 k => Sys2Proof.Machine.execMlget t rd rs1 k s
  | .mlset t rd rs1 rs2 k => Sys2Proof.Machine.execMlset t rd rs1 rs2 k s
  | .mcvti t rd rs1 => Sys2Proof.Machine.execMcvti t rd rs1 s
  | .mcvtm t rd rs1 te => Sys2Proof.Machine.execMcvtm t rd rs1 te s
  -- Completions: n counts from the thread's oldest entry (R67, R71, R173)
  | .longOperationComplete t n => Sys2Proof.Machine.execLongOperationComplete t n s
  | .loadDataArrival t n => Sys2Proof.Machine.execLoadDataArrival t n s
  | .storeComplete t n => Sys2Proof.Machine.execStoreComplete t n s
  | .instructionFetchArrival t => Sys2Proof.Machine.execInstructionFetchArrival t s
  | .speculativeAccess t va fetch => Sys2Proof.Machine.execSpeculativeAccess t va fetch s
  -- Block repeat (R145, R162)
  | .bmov t rd rs1 rs2 tags dir => Sys2Proof.Machine.execBmov t rd rs1 rs2 tags dir s
  | .bfill t rd rs1 rs2 => Sys2Proof.Machine.execBfill t rd rs1 rs2 s
  | .bscan t rd rs1 rs2 => Sys2Proof.Machine.execBscan t rd rs1 rs2 s
  | .bcmp t rd rs1 rs2 => Sys2Proof.Machine.execBcmp t rd rs1 rs2 s
  | .bchk t rs1 rs2 mask => Sys2Proof.Machine.execBchk t rs1 rs2 mask s
  -- Plates and the commit sequencer (R185, R198)
  | .pbegin t rd off => Sys2Proof.Machine.execPbegin t rd off s
  | .pbeginDefer t rd off => Sys2Proof.Machine.execPbeginDefer t rd off s
  | .pcommit t rd => Sys2Proof.Machine.execPcommit t rd s
  | .pabort t code => Sys2Proof.Machine.execPabort t code s
  | .pstat t rd sel => Sys2Proof.Machine.execPstat t rd sel s
  | .commitRequest t => Sys2Proof.Machine.execCommitRequest t s
  | .commitPoint t => Sys2Proof.Machine.execCommitPoint t s
  | .journalWaitExpiry t => Sys2Proof.Machine.execJournalWaitExpiry t s
  | .deferLimitExpiry t => Sys2Proof.Machine.execDeferLimitExpiry t s
  -- Interrupts (R280, R287, R288); 'during' lists (cycle, vector) raised during the entry (R290)
  | .interruptEntry t during => Sys2Proof.Machine.execInterruptEntry t during s
  | .vectorRaise tile vector => Sys2Proof.Machine.execVectorRaise tile vector s
  | .vcfgWrite m tile vector value => Sys2Proof.Machine.execVcfgWrite m tile vector value s
  | .pendWrite m tile k value => Sys2Proof.Machine.execPendWrite m tile k value s
  | .swsetWrite m tile value => Sys2Proof.Machine.execSwsetWrite m tile value s
  -- Line repair (R238)
  | .lineRepairComplete line => Sys2Proof.Machine.execLineRepairComplete line s
  -- Port instructions (R313, R316, R321)
  | .precv t rd rs1 => Sys2Proof.Machine.execPrecv t rd rs1 s
  | .psend t rd rs1 rs2 => Sys2Proof.Machine.execPsend t rd rs1 rs2 s
  | .pwait t rd rs1 rs2 => Sys2Proof.Machine.execPwait t rd rs1 rs2 s
  | .pwaitTimeout t => Sys2Proof.Machine.execPwaitTimeout t s
  | .portClaimExpiry port => Sys2Proof.Machine.execPortClaimExpiry port s
  | .pctlQuery t rd rs1 rs2 => Sys2Proof.Machine.execPctlQuery t rd rs1 rs2 s
  | .pctlClose t rd rs1 rs2 => Sys2Proof.Machine.execPctlClose t rd rs1 rs2 s
  | .pctlAbort t rd rs1 rs2 => Sys2Proof.Machine.execPctlAbort t rd rs1 rs2 s
  | .pctlRelease t rd rs1 rs2 => Sys2Proof.Machine.execPctlRelease t rd rs1 rs2 s
  | .pctlSetconf t rd rs1 rs2 => Sys2Proof.Machine.execPctlSetconf t rd rs1 rs2 s
  | .pctlKeys t rd rs1 rs2 => Sys2Proof.Machine.execPctlKeys t rd rs1 rs2 s
  | .pctlLpool t rd rs1 rs2 => Sys2Proof.Machine.execPctlLpool t rd rs1 rs2 s
  -- Network (R302, R303, R310)
  | .ethernetFrameReceive mac f => Sys2Proof.Machine.execEthernetFrameReceive mac f s
  | .messageDelimit port => Sys2Proof.Machine.execMessageDelimit port s
  | .retransmissionTimeout port => Sys2Proof.Machine.execRetransmissionTimeout port s
  | .ackTimerExpiry port => Sys2Proof.Machine.execAckTimerExpiry port s
  | .timeWaitExpiry port => Sys2Proof.Machine.execTimeWaitExpiry port s
  | .rawtxTailWrite m mac value => Sys2Proof.Machine.execRawtxTailWrite m mac value s
  | .rawrxTailWrite m mac value => Sys2Proof.Machine.execRawrxTailWrite m mac value s
  | .kcmdInstall m => Sys2Proof.Machine.execKcmdInstall m s
  | .kcmdErase m => Sys2Proof.Machine.execKcmdErase m s
  -- Etcher, journal, recovery, power failure (R223 to R241)
  | .format m => Sys2Proof.Machine.execFormat m s
  | .formatComplete => Sys2Proof.Machine.execFormatComplete s
  | .openJournal m => Sys2Proof.Machine.execOpenJournal m s
  | .recoveryComplete => Sys2Proof.Machine.execRecoveryComplete s
  | .tailRequest unit fmtid pos => Sys2Proof.Machine.execTailRequest unit fmtid pos s
  | .tailAnswer unit tail => Sys2Proof.Machine.execTailAnswer unit tail s
  | .tailRequestTimeout => Sys2Proof.Machine.execTailRequestTimeout s
  | .etchCtrlWrite m value => Sys2Proof.Machine.execEtchCtrlWrite m value s
  | .mirrorRecord unit jpos record => Sys2Proof.Machine.execMirrorRecord unit jpos record s
  | .mirrorAck unit jpos => Sys2Proof.Machine.execMirrorAck unit jpos s
  | .mirrorTimeout => Sys2Proof.Machine.execMirrorTimeout s
  | .drainedPosition unit jpos => Sys2Proof.Machine.execDrainedPosition unit jpos s
  | .nvmeSafeGatherTimeout => Sys2Proof.Machine.execNvmeSafeGatherTimeout s
  | .partialBlockTimeout => Sys2Proof.Machine.execPartialBlockTimeout s
  | .nvmeCommandComplete status => Sys2Proof.Machine.execNvmeCommandComplete status s
  | .proofEpochBoundary => Sys2Proof.Machine.execProofEpochBoundary s
  | .pwrfailAssert => Sys2Proof.Machine.execPwrfailAssert s
  | .pwrfailFilterExpiry => Sys2Proof.Machine.execPwrfailFilterExpiry s
  | .powerFailDrainComplete => Sys2Proof.Machine.execPowerFailDrainComplete s
  | .pwrfailDeassert => Sys2Proof.Machine.execPwrfailDeassert s
  -- Sudon chain (R334 to R357)
  | .flitReceive link flit => Sys2Proof.Machine.execFlitReceive link flit s
  | .linkIdleTimeout link => Sys2Proof.Machine.execLinkIdleTimeout link s
  | .linkTrainingLost link => Sys2Proof.Machine.execLinkTrainingLost link s
  | .linkRetrain link goodLanes neighbour => Sys2Proof.Machine.execLinkRetrain link goodLanes neighbour s
  | .enumerationToken token => Sys2Proof.Machine.execEnumerationToken token s
  | .enumerationTokenTimeout => Sys2Proof.Machine.execEnumerationTokenTimeout s
  | .positionList ring order closed => Sys2Proof.Machine.execPositionList ring order closed s
  | .addressRequest link => Sys2Proof.Machine.execAddressRequest link s
  | .addressTimeout => Sys2Proof.Machine.execAddressTimeout s
  | .joinAnswer link ring position => Sys2Proof.Machine.execJoinAnswer link ring position s
  | .probe origin target via => Sys2Proof.Machine.execProbe origin target via s
  | .probeAnswer link reached => Sys2Proof.Machine.execProbeAnswer link reached s
  | .probeTimeout link => Sys2Proof.Machine.execProbeTimeout link s
  | .fenceCheck => Sys2Proof.Machine.execFenceCheck s
  | .take m => Sys2Proof.Machine.execTake m s
  | .takeWaitExpiry => Sys2Proof.Machine.execTakeWaitExpiry s
  | .takeoverComplete => Sys2Proof.Machine.execTakeoverComplete s
  | .hoStart m => Sys2Proof.Machine.execHoStart m s
  | .handoverReserve r => Sys2Proof.Machine.execHandoverReserve r s
  | .handoverReserveAnswer a => Sys2Proof.Machine.execHandoverReserveAnswer a s
  | .handoverTransfer x => Sys2Proof.Machine.execHandoverTransfer x s
  | .handoverAck about => Sys2Proof.Machine.execHandoverAck about s
  | .handoverTimeout => Sys2Proof.Machine.execHandoverTimeout s
  | .forwardedFrame port gen mac f => Sys2Proof.Machine.execForwardedFrame port gen mac f s
  | .forwardWindowExpiry port => Sys2Proof.Machine.execForwardWindowExpiry port s
  | .drainedPositionReport => Sys2Proof.Machine.execDrainedPositionReport s
  -- Unit stops and clocks (R23, R377)
  | .bridgeFailure direction => Sys2Proof.Machine.execBridgeFailure direction s
  | .pllLockLoss refclkLost => Sys2Proof.Machine.execPllLockLoss refclkLost s
  | .ethrefLoss => Sys2Proof.Machine.execEthrefLoss s
  | .ethrefRestore => Sys2Proof.Machine.execEthrefRestore s
  -- Stencil gates (R368, R370)
  | .gateSync m gate => Sys2Proof.Machine.execGateSync m gate s
  | .gateSyncComplete gate => Sys2Proof.Machine.execGateSyncComplete gate s
  | .rattrWrite m gate region value => Sys2Proof.Machine.execRattrWrite m gate region value s
  -- Bellows (R376 to R394)
  | .ledgerTick a => Sys2Proof.Machine.execLedgerTick a s
  | .thermalCapLift => Sys2Proof.Machine.execThermalCapLift s
  | .plan tpp => Sys2Proof.Machine.execPlan tpp s
  | .pmbusCorrection r => Sys2Proof.Machine.execPmbusCorrection r s
  | .vrSettleExpiry => Sys2Proof.Machine.execVrSettleExpiry s
  | .clockGate tile => Sys2Proof.Machine.execClockGate tile s
  | .retentionOffExpiry tile => Sys2Proof.Machine.execRetentionOffExpiry tile s
  | .cryptoRetention engine => Sys2Proof.Machine.execCryptoRetention engine s
  | .domainWakeComplete domain => Sys2Proof.Machine.execDomainWakeComplete domain s
  | .domctlWrite m domain value => Sys2Proof.Machine.execDomctlWrite m domain value s
  | .calKeyWrite m value => Sys2Proof.Machine.execCalKeyWrite m value s
  | .calCmdWrite m value => Sys2Proof.Machine.execCalCmdWrite m value s
  | .calRewriteComplete verified => Sys2Proof.Machine.execCalRewriteComplete verified s
  -- Recorder (R405 to R409, R414)
  | .eventRecordWrite => Sys2Proof.Machine.execEventRecordWrite s
  | .rateWindowStart => Sys2Proof.Machine.execRateWindowStart s
  | .recCursorWrite m value => Sys2Proof.Machine.execRecCursorWrite m value s
  | .recWindowRead m wide => Sys2Proof.Machine.execRecWindowRead m wide s
  | .vdbgAuthWrite m value => Sys2Proof.Machine.execVdbgAuthWrite m value s
  -- JTAG and debug module (R410 to R413)
  | .tapReset => Sys2Proof.Machine.execTapReset s
  | .extest => Sys2Proof.Machine.execExtest s
  | .samplePreload => Sys2Proof.Machine.execSamplePreload s
  | .idcode => Sys2Proof.Machine.execIdcode s
  | .bypass => Sys2Proof.Machine.execBypass s
  | .dbgxferNop => Sys2Proof.Machine.execDbgxferNop s
  | .dbgxferMemRead addr => Sys2Proof.Machine.execDbgxferMemRead addr s
  | .dbgxferMemWrite addr data => Sys2Proof.Machine.execDbgxferMemWrite addr data s
  | .dbgxferRegRead addr => Sys2Proof.Machine.execDbgxferRegRead addr s
  | .dbgxferRegWrite addr data => Sys2Proof.Machine.execDbgxferRegWrite addr data s
  | .threadStop => Sys2Proof.Machine.execThreadStop s
  | .threadResume => Sys2Proof.Machine.execThreadResume s
  | .threadStep => Sys2Proof.Machine.execThreadStep s
  | .thrRegDataWrite data => Sys2Proof.Machine.execThrRegDataWrite data s
  -- Reset, boot, host (R417 to R434, R446, R451)
  | .coldReset straps => Sys2Proof.Machine.execColdReset straps s
  | .warmReset => Sys2Proof.Machine.execWarmReset s
  | .porstNAssert => Sys2Proof.Machine.execPorstNAssert s
  | .vddAonPowerUp => Sys2Proof.Machine.execVddAonPowerUp s
  | .railLoss aon => Sys2Proof.Machine.execRailLoss aon s
  | .linkTrainingComplete l => Sys2Proof.Machine.execLinkTrainingComplete l s
  | .ddr5TrainingComplete channels => Sys2Proof.Machine.execDdr5TrainingComplete channels s
  | .dramInitComplete => Sys2Proof.Machine.execDramInitComplete s
  | .imageReadComplete header body => Sys2Proof.Machine.execImageReadComplete header body s
  | .mbH2uDoorbell => Sys2Proof.Machine.execMbH2uDoorbell s
  | .mbU2hDoorbell m => Sys2Proof.Machine.execMbU2hDoorbell m s
  | .hostIrqWrite m value => Sys2Proof.Machine.execHostIrqWrite m value s
  | .hostRead bar2 offset width => Sys2Proof.Machine.execHostRead bar2 offset width s
  | .hostWrite bar2 offset data => Sys2Proof.Machine.execHostWrite bar2 offset data s
  | .epPerst => Sys2Proof.Machine.execEpPerst s
  | .rootPortLinkUp port speed width classCode version => Sys2Proof.Machine.execRootPortLinkUp port speed width classCode version s
  | .rootPortLinkDown port => Sys2Proof.Machine.execRootPortLinkDown port s
  | .macLinkUp mac => Sys2Proof.Machine.execMacLinkUp mac s
  | .macLinkDown mac => Sys2Proof.Machine.execMacLinkDown mac s
  -- Registers (R10)
  | .registerWrite m addr width value => Sys2Proof.Machine.execRegisterWrite m addr width value s

end Sys2Proof.Machine
end

