-- ==== Sys2Proof/Machine/Tick.lean ====
section
/-! DEFINITION. One TIME tick of 10 ns, which passes when no command is waiting (log entry 3): TIMENOW, CYCLES and PARKCYC (R87, R376). -/

namespace Sys2Proof.Machine

/-- Core cycles in one TIME tick at a step: 1.2, 1.6, 2.0 or 2.4 GHz (R376). -/
def cyclesPerTick (step : Nat) : Nat := 12 + 4 * step

/-- The core cycles of tile n go on while its clock runs (R87). -/
def State.tickTile (s : State) (n : Nat) : State :=
  if s.clocked && s.tileRuns n then s.setTile n { s.tile n with cycles := (s.tile n).cycles + cyclesPerTick s.stepNow } else s

/-- A PARKED thread of a running tile counts PARKCYC (R87). -/
def State.tickThread (s : State) (n : Nat) (th : Thread) : Thread :=
  match th.st with
  | .parked _ => if s.clocked && s.tileRuns (n / 8) then { th with parkcyc := th.parkcyc + cyclesPerTick s.stepNow } else th
  | _ => th

/-- The counters of every listed thread. -/
def State.tickThreads (s : State) : State := { s with threads := s.threads.map (fun (p : Nat × Thread) => (p.1, s.tickThread p.1 p.2)) }

/-- One TIME tick; nothing counts in cold reset. -/
def State.tick (s : State) : State :=
  if !s.powered then s
  else
    let s := (List.range 64).foldl State.tickTile s.tickThreads
    { s with timeNow := s.timeNow + 1 }

end Sys2Proof.Machine
end

