-- ==== Sys2Proof/Safety.lean ====
section
/-! DEFINITION. The words that statements are made of: when an instruction issues, what a command may change, and the invariant of the memory's
form. Nothing here is part of the machine. -/

/-- The thread whose instruction a command is; the commands that are no instruction have none. -/
def Sys2Proof.Instr.issuer (i : Instr) : Option Tid :=
  match i with
  | .add t _ _ _ | .sub t _ _ _ | .and t _ _ _ | .or t _ _ _ | .xor t _ _ _ | .andn t _ _ _ | .sll t _ _ _ | .srl t _ _ _ | .sra t _ _ _
  | .seq t _ _ _ | .sne t _ _ _ | .slt t _ _ _ | .sltu t _ _ _ | .sle t _ _ _ | .sleu t _ _ _ | .min t _ _ _ | .max t _ _ _ | .mul t _ _ _
  | .mulh t _ _ _ | .mulhu t _ _ _ | .div t _ _ _ | .divu t _ _ _ | .rem t _ _ _ | .remu t _ _ _ | .addi t _ _ _ | .andi t _ _ _ | .ori t _ _ _
  | .xori t _ _ _ | .slti t _ _ _ | .sltiu t _ _ _ | .slli t _ _ _ | .srli t _ _ _ | .srai t _ _ _ | .liu t _ _ | .cpcrel t _ _ | .bz t _ _
  | .bnz t _ _ | .j t _ | .call t _ | .jr t _ | .callr t _ | .ret t | .rspop t _ | .rspush t _ _ | .ccopy t _ _ | .cpoint t _ _ _ | .cstep t _ _ _
  | .cstepi t _ _ _ | .cnarrow t _ _ _ | .cnarrowX t _ _ _ | .cdrop t _ _ _ | .cdropi t _ _ _ | .ctint t _ _ _ | .cwrap t _ _ _ | .cunwrap t _ _ _
  | .cfitlen t _ _ | .cfitmask t _ _ | .cpaint t _ _ | .cpaintL t _ _ | .crdbase t _ _ | .crdlen t _ _ | .crdrt t _ _ | .crdclr t _ _
  | .crdseal t _ _ | .crdtag t _ _ | .crdcur t _ _ | .lb t _ _ _ _ | .lbu t _ _ _ _ | .lh t _ _ _ _ | .lhu t _ _ _ _ | .lw t _ _ _ _ | .lwu t _ _ _ _
  | .ld t _ _ _ _ | .lq t _ _ _ _ | .lc t _ _ _ _ | .pref t _ _ _ | .sb t _ _ _ | .sh t _ _ _ | .sw t _ _ _ | .sd t _ _ _ | .sq t _ _ _ | .sc t _ _ _
  | .atomicSwap t _ _ _ _ _ _ _ | .atomicAdd t _ _ _ _ _ _ _ | .atomicAnd t _ _ _ _ _ _ _ | .atomicOr t _ _ _ _ _ _ _ | .atomicXor t _ _ _ _ _ _ _
  | .atomicMax t _ _ _ _ _ _ _ | .atomicMin t _ _ _ _ _ _ _ | .atomicMaxu t _ _ _ _ _ _ _ | .atomicMinu t _ _ _ _ _ _ _ | .cas t _ _ _ _ _ _ _
  | .fence t _ | .sync t | .syncI t | .sysc t | .wcall t _ | .eret t | .brk t | .tstart t _ _ _ | .texit t | .invalV t _ | .crr t _ _ | .crw t _ _
  | .madd t _ _ _ _ _ _ | .msub t _ _ _ _ _ _ | .mmul t _ _ _ _ _ _ | .mdiv t _ _ _ _ _ _ | .mresc t _ _ _ _ _ _ | .mneg t _ _ _ | .mabs t _ _ _
  | .mceq t _ _ _ _ | .mclt t _ _ _ _ | .mcle t _ _ _ _ | .misv t _ _ | .ma2l t _ _ _ _ _ | .ml2a t _ _ _ _ _ | .mlget t _ _ _ | .mlset t _ _ _ _
  | .mcvti t _ _ | .mcvtm t _ _ _ | .bmov t _ _ _ _ _ | .bfill t _ _ _ | .bscan t _ _ _ | .bcmp t _ _ _ | .bchk t _ _ _ | .pbegin t _ _
  | .pbeginDefer t _ _ | .pcommit t _ | .pabort t _ | .pstat t _ _ | .precv t _ _ | .psend t _ _ _ | .pwait t _ _ _ | .pctlQuery t _ _ _
  | .pctlClose t _ _ _ | .pctlAbort t _ _ _ | .pctlRelease t _ _ _ | .pctlSetconf t _ _ _ | .pctlKeys t _ _ _ | .pctlLpool t _ _ _ => some t
  | _ => none

namespace Sys2Proof.Machine

/-! ### Invariants -/

/-- Bytes, tags and colours are listed in canonical form: rising addresses, and nothing that an unlisted address reads as. -/
def State.wf (s : State) : Prop := Memory.wf s.mem = true ∧ Map.wf granDefault s.gran = true

/-- What is fixed when a part is made: the ordering code, the debug fuse and the fused key hash (R2, R411, R426). -/
def State.fuses (s : State) : Bool × Bool × BitVec 384 := (s.i20, s.fuseDebug, s.keyHash)

/-! ### When an instruction issues -/

/-- No debug stop or step holds thread t at its next instruction boundary (R413). -/
def State.noStop (s : State) (t : Tid) : Prop := (s.thr t).stepping = false ∧ (s.thr t).stopReq = false

/-- Thread t's instruction with the demands p issues, and executes on s₁: the thread is READY on a running tile, its fetch passes the checks of
R48, its word is legal, its level suffices, and no operand or unit that it needs is busy. -/
def Issues (s : State) (t : Tid) (p : Pre) (s₁ : State) : Prop := tryIssue s t p = .go s₁ ∧ s₁.noStop t

/-- The next instruction of thread t can be fetched in identity mode (R252) from DRAM that no plate holds, without any error, whose colour and gate
let it pass (R48, R54, R58, R180, R363), and is in the L1 instruction cache of its tile for this thread (R67, R116). -/
def State.fetchable (s : State) (t : Tid) : Prop :=
  let th := s.thr t
  let c := th.pcc
  let a := c.cursor
  (c.tag = true ∧ c.seal = 0 ∧ c.has .ex = true ∧ c.base ≤ a ∧ a + 4 ≤ c.top) ∧
  ((th.troot th.world).getLsbD 12 = false ∧ field th.pkeys 0 2 ≠ 3 ∧ (th.world = .vault → c.has .vault = true)) ∧
  (s.isDram a = true ∧ s.heldByOther (some t) (a / 64) = false ∧ s.inError (a / 64) = false) ∧
  ((s.granuleAt (a / 16)).colour = c.colour ∨ (s.granuleAt (a / 16)).colour = 15) ∧
  (s.gateAccess (.tile t) a true false none = (s, .allow) ∧ Map.find s.weak (a / 64) = none) ∧
  ((Map.find (s.tile (tileOf t)).l1i (a / 64)).isSome = true ∧ a / 64 ∉ th.refetch)

/-- What a READY thread with nothing outstanding needs for an instruction with demands p. -/
def State.mayIssue (s : State) (t : Tid) (p : Pre) : Prop :=
  let th := s.thr t
  let tile := s.tile (tileOf t)
  (th.st = .ready ∧ s.tileRuns (tileOf t) = true ∧ th.outs = [] ∧ th.parity = [] ∧ th.pcc.cursor % 4 = 0) ∧
  (p.illegal = false ∧ (p.supervisor = true → th.level = .supervisor ∧ th.pcc.has .sys = true) ∧ (p.vaultOnly = true → th.world = .vault)) ∧
  (p.divider = true → tile.divBusy = false) ∧ (p.moneyDivider = true → tile.mdivBusy = false)

/-! ### Frames -/

/-- u differs from s in thread t alone. -/
def OnlyThread (s u : State) (t : Tid) : Prop := { u with threads := s.threads } = s ∧ ∀ x, x ≠ t → u.thr x = s.thr x

/-- No thread but t has a LIVE or COMMITTING plate, which an access of t could make abort (R180, R196). -/
def State.alone (s : State) (t : Tid) : Prop := ∀ x, x ≠ t → (s.plate x).abortable = false

/-- u differs from s in thread t and in the order of use of the L2's marked lines (R196) alone. -/
def OnlyAccess (s u : State) (t : Tid) : Prop := { u with threads := s.threads, l2 := s.l2 } = s ∧ ∀ x, x ≠ t → u.thr x = s.thr x

/-- u differs from s in thread t and in tiles alone. -/
def OnlyCore (s u : State) (t : Tid) : Prop := { u with threads := s.threads, tiles := s.tiles } = s ∧ ∀ x, x ≠ t → u.thr x = s.thr x

/-- th' differs from th in its general registers, its PCC and the destinations of its outstanding loads alone; parity errors of registers that are
written go with it. -/
def OnlyRegs (th th' : Thread) : Prop := { th' with regs := th.regs, parity := th.parity, pcc := th.pcc, outs := th.outs } = th

/-- General register rd holds v, and every other one what it held; a write to g0 is discarded (R63). -/
def WroteReg (th th' : Thread) (rd : Reg) (v : Cap) : Prop := ∀ r, th'.reg r = if r = rd ∧ r ≠ 0 then v else th.reg r

/-- PCC of th' is that of th moved past one instruction (R40). -/
def MovedOn (th th' : Thread) : Prop := th'.pcc = th.pcc.moveCursor (th.pcc.ea 4)

/-- The instruction writes v to rd, moves PCC on, and changes nothing else: an outstanding load of rd no longer has it as its destination
(R16, R67). -/
def WritesReg (s u : State) (t : Tid) (rd : Reg) (v : Cap) : Prop :=
  OnlyThread s u t ∧ OnlyRegs (s.thr t) (u.thr t) ∧ WroteReg (s.thr t) (u.thr t) rd v ∧ MovedOn (s.thr t) (u.thr t) ∧
    (u.thr t).outs = ((s.thr t).dropOlder s.fresh [rd]).outs

/-- The instruction makes thread t the thread th and changes nothing else. -/
def MakesThread (s u : State) (t : Tid) (th : Thread) : Prop := OnlyThread s u t ∧ u.thr t = th

/-- Every byte, tag and colour of memory is what it was. -/
def SameMemory (s u : State) : Prop := u.mem = s.mem ∧ u.gran = s.gran

/-- The threads are equal but for the counters ISSUED, TLBMISS and WALKS, the issues since the last ledger tick and the end of a wait for a
published line. -/
def SameArch (th th' : Thread) : Prop :=
  { th' with issued := th.issued, sinceTick := th.sinceTick, resume := th.resume, tlbmiss := th.tlbmiss, walks := th.walks } = th

/-- A write of master m reaches register r: the unit is powered, r's address names r, it is in no Durable area and no held line (R167, R180), and neither
its gate nor its unit turns the write away; no other register write of the command is under way. -/
def State.reachesReg (s : State) (m : Master) (r : RName) : Prop :=
  s.powered = true ∧ regAt r.addr = some r ∧ s.target r.addr = .mmio ∧ s.gateAccess m r.addr false true none = (s, .allow) ∧
    s.refusal m r.addr true = none ∧ s.isDurable r.addr = false ∧ s.heldByOther none (r.addr / 64) = false ∧ s.posted = []

end Sys2Proof.Machine
end

