-- ==== Sys2Proof/Certificates/Slice0/Obligations.lean ====
section
/-! DEFINITION. The statements for the provers; each docstring names the rules of spec/ that the statement rests on. -/

open Sys2Proof Sys2Proof.Machine

/-- A step runs the command at the front of the queue. For every command c and state s, a step with c at the front of the queue is exec of c on the
state with the queue's rest. Rests on 95_what_each_step_holds.md. -/
def Obligations.StepRunsFrontCommand : Prop :=
  ∀ (c : Instr) (rest : List Instr) (s : State), step { s with pending := c :: rest } = exec c { s with pending := rest }

/-- Every command answers a next state. No command ends in a fault or a refusal: for every command and every state exec answers a next state, and so
does a step. Rests on 95_what_each_step_holds.md, R16. -/
def Obligations.EveryCommandAnswers : Prop :=
  (∀ (c : Instr) (s : State), ∃ u, exec c s = .next u) ∧ ∀ s : State, ∃ u, step s = .next u

/-- No command changes the queue behind it or a fuse. Whatever command runs, in whatever state, the commands that wait behind it stay as they are and in
their order. The ordering code, the debug fuse and the fused key hash are what they were after every step, whatever command of whatever master it
runs. Rests on 95_what_each_step_holds.md, R2, R411, R426. -/
def Obligations.CommandsKeepQueueAndFuses : Prop :=
  (∀ (c : Instr) (s u : State), exec c s = .next u → u.pending = s.pending) ∧
    (∀ s u : State, step s = .next u → u.fuses = s.fuses)

/-- Every step keeps memory in canonical form. If the bytes of memory and the tags and colours of its granules are listed in canonical form, every step,
whatever command it runs, leaves them so. Rests on R49, R59, R8. -/
def Obligations.StepKeepsMemoryForm : Prop :=
  ∀ s u : State, s.wf → step s = .next u → u.wf

/-- The state right after reset. Right after reset every thread is EMPTY with null registers, every port is FREE, every byte of memory reads 0 with tag
0 and colour 15, NEXT_CSN reads 1 and DURABLE_CSN 0, nothing waits, and memory is in canonical form. That a unit at power-on is held in cold reset
(PORST_N asserted) and that no drive holds anything is the model's choice (log entries 1 and 6). Rests on R65, R59, R294, R233. -/
def Obligations.ResetLeaves : Prop :=
  (∀ t : Tid, (State.reset.thr t).st = .empty ∧ ∀ r, (State.reset.thr t).reg r = Cap.null) ∧
    (∀ n, (State.reset.port n).state = .free) ∧ (∀ a, State.reset.byteAt a = 0) ∧
    (∀ g, (State.reset.granuleAt g).tag = false ∧ (State.reset.granuleAt g).colour = 15) ∧
    State.reset.rget .nextCsn = 1 ∧ State.reset.rget .durableCsn = 0 ∧ State.reset.pending = [] ∧ State.reset.wf ∧ State.reset.powered = false

/-- On an empty queue one TIME tick passes. With no command waiting, a powered unit counts one TIME tick: TIMENOW rises by one, memory, ports, registers
and every thread that is not PARKED stay as they are. In cold reset nothing changes. That a tick takes the place of idling is the model's choice
(log entry 3). Rests on R87, R376. -/
def Obligations.EmptyQueueTicks : Prop :=
  ∀ s : State, s.pending = [] →
    (s.powered = false → step s = .next s) ∧
    (s.powered = true → ∃ u, step s = .next u ∧ u.timeNow = s.timeNow + 1 ∧ SameMemory s u ∧ u.ports = s.ports ∧ u.regs = s.regs ∧ u.etch = s.etch ∧
      u.out = s.out ∧ ∀ t, (∀ w, (s.thr t).st ≠ .parked w) → u.thr t = s.thr t)

/-- When an instruction issues. A READY thread of a running tile with nothing outstanding, whose next instruction can be fetched in identity mode from
DRAM that nothing guards, issues every legal instruction that its level admits and whose units are free: the instruction executes on the state with
the counters of an issue and nothing else changed. The line of the instruction is in the L1 instruction cache. Rests on R48, R65, R66, R67, R83,
R252. -/
def Obligations.AdmissionSucceeds : Prop :=
  ∀ (s : State) (t : Tid) (p : Pre), s.mayIssue t p → s.fetchable t →
    tryIssue s t p = .go (s.countIssue t)

/-- What issuing leaves alone, and what a thread that is not READY does. When an instruction issues, the state it executes on has the same memory, keys,
drive, chain and boot state, and the issuing thread is the same but for the counters ISSUED, TLBMISS and WALKS, its issues since the last ledger
tick and the mark of a finished wait. Another thread changes more than its state only if its plate was LIVE or COMMITTING, which a table walk can
make abort; where no other thread has such a plate, the other threads, ports, journal and ledger are unchanged. An instruction command of a thread
that is EMPTY, PARKED, WAITING or STOPPED, or whose tile does not run, leaves the whole state alone. Rests on R16, R66, R67, R83, R196, R65, R23,
R379. -/
def Obligations.IssueFrame : Prop :=
  (∀ (s s₁ : State) (t : Tid) (p : Pre), tryIssue s t p = .go s₁ →
      SameMemory s s₁ ∧ SameArch (s.thr t) (s₁.thr t) ∧ s₁.keys = s.keys ∧ s₁.drive0 = s.drive0 ∧ s₁.sudon = s.sudon ∧ s₁.boot = s.boot ∧
      (∀ x, x ≠ t → (s.plate x).abortable = false → { s₁.thr x with st := (s.thr x).st } = s.thr x) ∧
      (s.alone t → (∀ x, x ≠ t → s₁.thr x = s.thr x) ∧ s₁.ports = s.ports ∧ s₁.etch = s.etch ∧ s₁.bellows = s.bellows)) ∧
    (∀ (i : Instr) (s : State) (t : Tid), i.issuer = some t → ((s.thr t).st ≠ .ready ∨ s.tileRuns (tileOf t) = false) → exec i s = .next s)

/-- Illegal and privileged instructions. An instruction that a READY thread with nothing outstanding fetches raises ILLEGAL_OP, counted as an issue,
when it is FENCE with an empty half of its mask, an atomic with SIZE 4 or more or SIZE 2 or 3 outside SWAP and CAS, CRR of a number that names no
control register, CRW of one that names none or a read-only one, or MLGET or MLSET of a limb above 9. At user level TSTART, ERET, INVAL.V, PCTL
LPOOL and CRR or CRW of a register that only supervisor level reads or writes raise PRIV; at supervisor level through a PCC without SYS they raise
CAP_RIGHTS with DETAIL 32 and the address of the instruction, but for the registers of the Vault supervisor in the Main world, which raise PRIV. The
thread is READY and has nothing outstanding. Rests on R83, R86, R114, R140, R173, R41, R269, R271, R321. -/
def Obligations.ChecksBeforeIssue : Prop :=
  (∀ (s s₁ : State) (t : Tid) (segs : List Seg),
      (s.thr t).st = .ready → s.tileRuns (tileOf t) = true → (s.thr t).outs = [] → (s.thr t).parity = [] →
      s.check t (fetchReq (s.thr t).pcc) = (s₁, .ok segs) → s₁.missesFetch t segs = none →
      let illegal (i : Instr) : Prop := exec i s = .next ((s₁.countIssue t).raise t { cause := 0x01 })
      (∀ mask, mask.toNat / 4 = 0 ∨ mask.toNat % 4 = 0 → illegal (.fence t mask)) ∧
      (∀ c ∈ ([.atomicAdd, .atomicAnd, .atomicOr, .atomicXor, .atomicMax, .atomicMin, .atomicMaxu, .atomicMinu] :
          List (Tid → Reg → Reg → Reg → Bool → Bool → BitVec 4 → Bool → Instr)), ∀ rd rs1 rs2 aq rl size hit, 2 ≤ size.toNat →
        illegal (c t rd rs1 rs2 aq rl size hit)) ∧
      (∀ c ∈ ([.atomicSwap, .cas] : List (Tid → Reg → Reg → Reg → Bool → Bool → BitVec 4 → Bool → Instr)), ∀ rd rs1 rs2 aq rl size hit, 4 ≤ size.toNat →
        illegal (c t rd rs1 rs2 aq rl size hit)) ∧
      (∀ rd cr, crOf cr = none → illegal (.crr t rd cr) ∧ illegal (.crw t cr rd)) ∧
      (∀ rs1 cr c, crOf cr = some c → c.writeAt = none → illegal (.crw t cr rs1)) ∧
      (∀ rd rs1 rs2 k, 9 < k.toNat → illegal (.mlget t rd rs1 k) ∧ illegal (.mlset t rd rs1 rs2 k))) ∧
    (∀ (s s₁ : State) (t : Tid) (segs : List Seg),
      (s.thr t).st = .ready → s.tileRuns (tileOf t) = true → (s.thr t).outs = [] → (s.thr t).parity = [] →
      s.check t (fetchReq (s.thr t).pcc) = (s₁, .ok segs) → s₁.missesFetch t segs = none →
      let th := s₁.thr t
      let priv (i : Instr) : Prop := exec i s = .next ((s₁.countIssue t).raise t { cause := 0x02 })
      let noSys (i : Instr) : Prop := exec i s = .next ((s₁.countIssue t).raise t { cause := 0x05, detail := 32, fa := th.pcc.cursor })
      let checks (vs : Bool) (i : Instr) : Prop := (th.level = .user → priv i) ∧ (vs = true → th.world = .main → priv i) ∧
        (th.level = .supervisor → (vs = false ∨ th.world = .vault) → th.pcc.has .sys = false → noSys i)
      (∀ rd rs1 rs2, checks false (.eret t) ∧ checks false (.invalV t rs1) ∧ checks false (.tstart t rd rs1 rs2) ∧ checks false (.pctlLpool t rd rs1 rs2)) ∧
      (∀ r cr c, crOf cr = some c → (c.readAt ≠ .any → checks (decide (c.readAt = .vs)) (.crr t r cr)) ∧
        (c.writeAt = some .supervisor → checks false (.crw t cr r)) ∧ (c.writeAt = some .vs → checks true (.crw t cr r))))

/-- Integer register operations. Each of the twenty one-cycle and multiply functions writes its result of rs1[63:0] and rs2[63:0] to rd, untagged, moves
PCC on and changes nothing else; a write to g0 is discarded. Rests on R99, R100, R62, R63. -/
def Obligations.IntegerResults : Prop :=
  ∀ c ∈ ([(.add, fun a b => a + b), (.sub, fun a b => a - b), (.and, fun a b => a &&& b), (.or, fun a b => a ||| b),
      (.xor, fun a b => a ^^^ b), (.andn, fun a b => a &&& ~~~b), (.sll, fun a b => BitVec.ofNat 64 (a.toNat * 2 ^ (b.toNat % 64))),
      (.srl, fun a b => BitVec.ofNat 64 (a.toNat / 2 ^ (b.toNat % 64))), (.sra, fun a b => BitVec.ofInt 64 (a.toInt / 2 ^ (b.toNat % 64))),
      (.seq, fun a b => if a = b then 1 else 0), (.sne, fun a b => if a = b then 0 else 1),
      (.slt, fun a b => if a.toInt < b.toInt then 1 else 0), (.sltu, fun a b => if a.toNat < b.toNat then 1 else 0),
      (.sle, fun a b => if a.toInt ≤ b.toInt then 1 else 0), (.sleu, fun a b => if a.toNat ≤ b.toNat then 1 else 0),
      (.min, fun a b => if a.toInt ≤ b.toInt then a else b), (.max, fun a b => if a.toInt ≤ b.toInt then b else a),
      (.mul, fun a b => BitVec.ofNat 64 (a.toNat * b.toNat)), (.mulh, fun a b => BitVec.ofInt 64 (a.toInt * b.toInt / 2 ^ 64)),
      (.mulhu, fun a b => BitVec.ofNat 64 (a.toNat * b.toNat / 2 ^ 64))] : List ((Tid → Reg → Reg → Reg → Instr) × (Word → Word → Word))),
    ∀ (t : Tid) (rd rs1 rs2 : Reg) (s s₁ : State), Issues s t { srcs := [rs1, rs2], dests := [rd] } s₁ →
      ∃ u, exec (c.1 t rd rs1 rs2) s = .next u ∧
        WritesReg s₁ u t rd (Cap.ofWord (c.2 ((s₁.thr t).reg rs1).low ((s₁.thr t).reg rs2).low))

/-- Immediate operations, LIU and CPCREL. ADDI, ANDI, SLTI and SLTIU sign-extend imm14, ORI and XORI extend it with zeros, the shifts take a 6-bit
amount; each writes its result to rd, moves PCC on and changes nothing else. LIU writes imm20 sign-extended and shifted left by 14; CPCREL writes
PCC moved by imm20 instruction words, its tag kept only within reach; both move PCC on and change nothing else. Rests on R81, R101, R102, R109, R40. -/
def Obligations.ImmediateResults : Prop :=
  (∀ (t : Tid) (rd rs1 : Reg) (s s₁ : State), Issues s t { srcs := [rs1], dests := [rd] } s₁ →
      (∀ c ∈ ([(.addi, fun a i => BitVec.ofInt 64 (a.toInt + i.toInt)), (.andi, fun a i => a &&& BitVec.ofInt 64 i.toInt),
          (.ori, fun a i => a ||| BitVec.ofNat 64 i.toNat), (.xori, fun a i => a ^^^ BitVec.ofNat 64 i.toNat),
          (.slti, fun a i => if a.toInt < i.toInt then 1 else 0), (.sltiu, fun a i => if a.toNat < (BitVec.ofInt 64 i.toInt).toNat then 1 else 0)] :
          List ((Tid → Reg → Reg → BitVec 14 → Instr) × (Word → BitVec 14 → Word))),
        ∀ imm, ∃ u, exec (c.1 t rd rs1 imm) s = .next u ∧ WritesReg s₁ u t rd (Cap.ofWord (c.2 ((s₁.thr t).reg rs1).low imm))) ∧
      (∀ c ∈ ([(.slli, fun a k => BitVec.ofNat 64 (a.toNat * 2 ^ k.toNat)), (.srli, fun a k => BitVec.ofNat 64 (a.toNat / 2 ^ k.toNat)),
          (.srai, fun a k => BitVec.ofInt 64 (a.toInt / 2 ^ k.toNat))] : List ((Tid → Reg → Reg → BitVec 6 → Instr) × (Word → BitVec 6 → Word))),
        ∀ sh, ∃ u, exec (c.1 t rd rs1 sh) s = .next u ∧ WritesReg s₁ u t rd (Cap.ofWord (c.2 ((s₁.thr t).reg rs1).low sh)))) ∧
    (∀ (t : Tid) (rd : Reg) (imm : BitVec 20) (s s₁ : State), Issues s t { dests := [rd] } s₁ →
      (∃ u, exec (.liu t rd imm) s = .next u ∧ WritesReg s₁ u t rd (Cap.ofWord (BitVec.ofInt 64 (imm.toInt * 16384)))) ∧
      (∃ u, exec (.cpcrel t rd imm) s = .next u ∧
        WritesReg s₁ u t rd ((s₁.thr t).pcc.moveCursor ((((s₁.thr t).pcc.cursor : Int) + 4 * imm.toInt) % (2 ^ 54 : Int)).toNat)))

/-- Integer divide. A divide issues when the divider is free, keeps it busy, leaves its result outstanding and moves PCC on; LONG_OPERATION_COMPLETE of
a READY thread then writes the quotient or remainder to rd and frees the divider; memory, other registers and, but for their states, other threads
are unchanged. With a zero divisor the quotient is all ones and the remainder the dividend; -2^63 by -1 gives -2^63 and 0. Rests on R99, R100, R72,
R67. -/
def Obligations.DivideResults : Prop :=
  (∀ c ∈ ([(.div, fun a b => if b = 0 then ~~~0 else BitVec.ofInt 64 (a.toInt.tdiv b.toInt)),
        (.divu, fun a b => if b = 0 then ~~~0 else BitVec.ofNat 64 (a.toNat / b.toNat)),
        (.rem, fun a b => if b = 0 then a else BitVec.ofInt 64 (a.toInt.tmod b.toInt)),
        (.remu, fun a b => if b = 0 then a else BitVec.ofNat 64 (a.toNat % b.toNat))] : List ((Tid → Reg → Reg → Reg → Instr) × (Word → Word → Word))),
      ∀ (t : Tid) (rd rs1 rs2 : Reg) (s s₁ : State), Issues s t { srcs := [rs1, rs2], dests := [rd], divider := true } s₁ →
        ∃ u, exec (c.1 t rd rs1 rs2) s = .next u ∧ (u.tile (tileOf t)).divBusy = true ∧ OnlyCore s₁ u t ∧
          u.thr t = (Thread.advance { (s₁.thr t) with outs := ((s₁.thr t).dropOlder s₁.fresh [rd]).outs ++
            [{ stamp := s₁.fresh, rd := rd, te := false, kind := .divide (c.2 ((s₁.thr t).reg rs1).low ((s₁.thr t).reg rs2).low) }] } 4)) ∧
    (∀ (t : Tid) (n : Nat) (s : State) (o : Out) (v : Word), (s.thr t).outs[n]? = some o → o.kind = .divide v → (s.thr t).st = .ready →
      ∃ u, exec (.longOperationComplete t n) s = .next u ∧ WroteReg (s.thr t) (u.thr t) o.rd (Cap.ofWord v) ∧
        (u.tile (tileOf t)).divBusy = false ∧ (u.thr t).outs = (s.thr t).outs.eraseIdx n ∧ (u.thr t).pcc = (s.thr t).pcc ∧
        { u with threads := s.threads, tiles := s.tiles } = s ∧ ∀ x, x ≠ t → { u.thr x with st := (s.thr x).st } = s.thr x)

/-- Branches and jumps. BZ jumps when all 128 bits of rt are zero and BNZ when they are not, to PCC + 4 × imm20, and otherwise move on; J always jumps.
Nothing but PCC changes. JR installs the capability in rs1 when it is tagged, unsealed, holds EX and its cursor is a multiple of 4, and otherwise
raises for the first of these that fails. Rests on R85, R97, R103, R104. -/
def Obligations.BranchResults : Prop :=
  ∀ (t : Tid) (rt : Reg) (off : BitVec 20) (s s₁ : State),
    let target : Cap := (s₁.thr t).pcc.moveCursor ((s₁.thr t).pcc.ea (4 * off.toInt))
    let next : Cap := (s₁.thr t).pcc.moveCursor ((s₁.thr t).pcc.ea 4)
    (Issues s t { srcs := [rt] } s₁ →
      (∃ u, exec (.bz t rt off) s = .next u ∧
        MakesThread s₁ u t { (s₁.thr t) with pcc := if ((s₁.thr t).reg rt).bits = 0 then target else next }) ∧
      (∃ u, exec (.bnz t rt off) s = .next u ∧
        MakesThread s₁ u t { (s₁.thr t) with pcc := if ((s₁.thr t).reg rt).bits = 0 then next else target }) ∧
      (((s₁.thr t).reg rt).tag = true → ((s₁.thr t).reg rt).seal = 0 → ((s₁.thr t).reg rt).has .ex = true → ((s₁.thr t).reg rt).cursor % 4 = 0 →
        ∃ u, exec (.jr t rt) s = .next u ∧ MakesThread s₁ u t { (s₁.thr t) with pcc := (s₁.thr t).reg rt }) ∧
      (let c := (s₁.thr t).reg rt
       let raises (cause : Nat) : Prop := exec (.jr t rt) s = .next (s₁.raise t { cause := cause, detail := rt.toNat, fa := c.cursor })
       (c.tag = false → raises 0x03) ∧ (c.tag = true → c.seal ≠ 0 → raises 0x06) ∧ (c.tag = true → c.seal = 0 → c.has .ex = false → raises 0x05) ∧
        (c.tag = true → c.seal = 0 → c.has .ex = true → c.cursor % 4 ≠ 0 → raises 0x08))) ∧
    (Issues s t {} s₁ → ∃ u, exec (.j t off) s = .next u ∧ MakesThread s₁ u t { (s₁.thr t) with pcc := target })

/-- Calls, returns and the return stack. CALL and CALLR push the sealed, local address of the next instruction with the thread's world and level and
jump; RET pops the top entry, of its own world and level, and jumps to it unsealed; RSPOP pops it into rd; RSPUSH pushes a capability of type 0xFFE,
and a pushed entry has good parity. In wrap mode a push at depth 16 loses the oldest entry, and RSPOP of an empty stack gives null; in trap mode a
CALL at depth 16 raises RSTACK. Rests on R75, R77, R78, R97, R104. -/
def Obligations.CallResults : Prop :=
  ∀ (t : Tid) (rd rs1 : Reg) (off : BitVec 20) (lv : Level) (s s₁ : State),
    let th := s₁.thr t
    let ret : RsEntry := { cap := ((th.pcc.moveCursor (th.pcc.ea 4)).dropGl).setSeal 0xFFE, world := th.world, level := th.level }
    let full : Prop := th.rstack.length = 16
    let pushed (e : RsEntry) : Thread := { th with rstack := (e :: th.rstack).take 16, parity := pushParity th.rstack.length th.parity }
    let jumpable (c : Cap) : Prop := c.tag = true ∧ c.seal = 0 ∧ c.has .ex = true ∧ c.cursor % 4 = 0
    (Issues s t {} s₁ → ((th.rsMode = false ∧ th.plate.pdepth = 0) ∨ th.rstack.length < 16) →
      ∃ u, exec (.call t off) s = .next u ∧
        MakesThread s₁ u t { pushed ret with pcc := th.pcc.moveCursor (th.pcc.ea (4 * off.toInt)) }) ∧
    (Issues s t {} s₁ → full → th.plate.pdepth = 0 → th.rsMode = true → exec (.call t off) s = .next (s₁.raise t { cause := 0x12, detail := 0 })) ∧
    (Issues s t { srcs := [rs1] } s₁ → jumpable (th.reg rs1) → ((th.rsMode = false ∧ th.plate.pdepth = 0) ∨ th.rstack.length < 16) →
      ∃ u, exec (.callr t rs1) s = .next u ∧ MakesThread s₁ u t { pushed ret with pcc := th.reg rs1 }) ∧
    (∀ x r, Issues s t {} s₁ → th.rstack = x :: r → th.plate.pdepth = 0 → th.parity = [] → x.cap.tag = true → x.cap.seal = 0xFFE →
      x.world = th.world → x.level = th.level → jumpable (x.cap.setSeal 0) →
      ∃ u, exec (.ret t) s = .next u ∧ MakesThread s₁ u t { th with rstack := r, pcc := x.cap.setSeal 0 }) ∧
    (∀ x r, Issues s t { dests := [rd] } s₁ → th.rstack = x :: r → th.plate.pdepth = 0 → th.parity = [] → x.world = th.world →
      (x.level = .user ∨ th.level = .supervisor) →
      ∃ u, exec (.rspop t rd) s = .next u ∧ WroteReg th (u.thr t) rd x.cap ∧ (u.thr t).rstack = r ∧ MovedOn th (u.thr t) ∧ OnlyThread s₁ u t) ∧
    (Issues s t { dests := [rd] } s₁ → th.rstack = [] → th.plate.pdepth = 0 → th.rsMode = false →
      ∃ u, exec (.rspop t rd) s = .next u ∧ WritesReg s₁ u t rd Cap.null) ∧
    (Issues s t { srcs := [rs1] } s₁ → (th.reg rs1).tag = true → (th.reg rs1).seal = 0xFFE → (lv = .user ∨ th.level = .supervisor) →
      ((th.rsMode = false ∧ th.plate.pdepth = 0) ∨ th.rstack.length < 16) →
      ∃ u, exec (.rspush t rs1 lv) s = .next u ∧
        MakesThread s₁ u t ((pushed { cap := th.reg rs1, world := th.world, level := lv }).advance 4))

/-- Inspecting and moving a capability. CRDBASE, CRDLEN, CRDRT, CRDCLR, CRDSEAL, CRDTAG and CRDCUR write a field of rs1 as an untagged integer, whether
rs1 is tagged or not; CFITLEN and CFITMASK write the length and the alignment mask that exact bounds of rs1[63:0] bytes need. CCOPY copies rs1 with
its tag; CPOINT, CSTEP and CSTEPI move the cursor of an unsealed rs1 to rs2[53:0], by rs2 or by imm14, keeping the tag only within reach; a tagged
sealed rs1 raises CAP_SEALED with the register and its cursor. Rests on R34, R37, R41, R105, R107, R40, R46, R47, R109. -/
def Obligations.CapabilityFields : Prop :=
  (∀ c ∈ ([(.crdbase, fun x => BitVec.ofNat 64 x.base), (.crdlen, fun x => BitVec.ofNat 64 x.length),
        (.crdrt, fun x => BitVec.ofNat 64 (x.bits.toNat / 2 ^ 98 % 2 ^ 14)), (.crdclr, fun x => BitVec.ofNat 64 (x.bits.toNat / 2 ^ 112 % 16)),
        (.crdseal, fun x => BitVec.ofNat 64 (x.bits.toNat / 2 ^ 116)), (.crdtag, fun x => if x.tag then 1 else 0),
        (.crdcur, fun x => BitVec.ofNat 64 (x.bits.toNat % 2 ^ 54)), (.cfitlen, fun x => BitVec.ofNat 64 (fitLen x.low.toNat)),
        (.cfitmask, fun x => fitMask x.low.toNat)] : List ((Tid → Reg → Reg → Instr) × (Cap → Word))),
      ∀ (t : Tid) (rd rs1 : Reg) (s s₁ : State), Issues s t { srcs := [rs1], dests := [rd] } s₁ →
        ∃ u, exec (c.1 t rd rs1) s = .next u ∧ WritesReg s₁ u t rd (Cap.ofWord (c.2 ((s₁.thr t).reg rs1)))) ∧
    (∀ (t : Tid) (rd rs1 rs2 : Reg) (imm : BitVec 14) (s s₁ : State),
      let c := (s₁.thr t).reg rs1
      let free : Prop := c.tag = false ∨ c.seal = 0
      (Issues s t { srcs := [rs1], dests := [rd] } s₁ →
        (∃ u, exec (.ccopy t rd rs1) s = .next u ∧ WritesReg s₁ u t rd c) ∧
        (free → ∃ u, exec (.cstepi t rd rs1 imm) s = .next u ∧ WritesReg s₁ u t rd (c.moveCursor ((((c.cursor : Int) + imm.toInt) % (2 ^ 54 : Int)).toNat))) ∧
        (c.tag = true → c.seal ≠ 0 → exec (.cstepi t rd rs1 imm) s = .next (s₁.raise t { cause := 0x06, detail := rs1.toNat, fa := c.cursor }))) ∧
      (Issues s t { srcs := [rs1, rs2], dests := [rd] } s₁ →
        (free → ∃ u, exec (.cpoint t rd rs1 rs2) s = .next u ∧ WritesReg s₁ u t rd (c.moveCursor (((s₁.thr t).reg rs2).low.toNat % 2 ^ 54))) ∧
        (free → ∃ u, exec (.cstep t rd rs1 rs2) s = .next u ∧
          WritesReg s₁ u t rd (c.moveCursor ((((c.cursor : Int) + ((s₁.thr t).reg rs2).low.toInt) % (2 ^ 54 : Int)).toNat))) ∧
        (c.tag = true → c.seal ≠ 0 →
          exec (.cpoint t rd rs1 rs2) s = .next (s₁.raise t { cause := 0x06, detail := rs1.toNat, fa := c.cursor }) ∧
          exec (.cstep t rd rs1 rs2) s = .next (s₁.raise t { cause := 0x06, detail := rs1.toNat, fa := c.cursor }))))

/-- Narrowing, dropping rights, tinting. For a tagged unsealed rs1: CNARROW and CNARROW.X set the bounds to fit(cursor, rs2) when they lie within the
old ones, CNARROW.X only when fit is exact; CDROP and CDROPI clear the rights that the mask lacks; CTINT sets the colour when rs1 holds CLR.
Narrowing beyond the bounds raises CAP_BOUNDS, tinting without CLR raises CAP_RIGHTS, and any of them on an untagged or a sealed rs1 raises CAP_TAG
or CAP_SEALED. Rests on R39, R46, R47, R105, R106, R109. -/
def Obligations.CapabilityNarrowing : Prop :=
  ∀ (t : Tid) (rd rs1 rs2 : Reg) (imm : BitVec 14) (s s₁ : State),
    let c := (s₁.thr t).reg rs1
    let n := ((s₁.thr t).reg rs2).low.toNat
    let f := fit c.cursor n
    let refused (i : Instr) : Prop := (c.tag = false → exec i s = .next (s₁.raise t { cause := 0x03, detail := rs1.toNat, fa := c.cursor })) ∧
      (c.tag = true → c.seal ≠ 0 → exec i s = .next (s₁.raise t { cause := 0x06, detail := rs1.toNat, fa := c.cursor }))
    (Issues s t { srcs := [rs1, rs2], dests := [rd] } s₁ → ∀ i ∈ ([.cnarrow t rd rs1 rs2, .cnarrowX t rd rs1 rs2, .cdrop t rd rs1 rs2, .ctint t rd rs1 rs2] : List Instr),
      refused i) ∧
    (Issues s t { srcs := [rs1], dests := [rd] } s₁ → refused (.cdropi t rd rs1 imm)) ∧ (
    c.tag = true → c.seal = 0 →
    (Issues s t { srcs := [rs1, rs2], dests := [rd] } s₁ →
      (c.cursor + n ≤ 2 ^ 54 → c.base ≤ f.lo → f.hi ≤ c.top → ∃ u, exec (.cnarrow t rd rs1 rs2) s = .next u ∧ WritesReg s₁ u t rd (c.withFit f)) ∧
      (c.cursor + n ≤ 2 ^ 54 → c.base ≤ f.lo → f.hi ≤ c.top → f.lo = c.cursor → f.hi = c.cursor + n →
        ∃ u, exec (.cnarrowX t rd rs1 rs2) s = .next u ∧ WritesReg s₁ u t rd (c.withFit f)) ∧
      (2 ^ 54 < c.cursor + n ∨ f.lo < c.base ∨ c.top < f.hi →
        exec (.cnarrow t rd rs1 rs2) s = .next (s₁.raise t { cause := 0x04, detail := rs1.toNat, fa := c.cursor })) ∧
      (2 ^ 54 < c.cursor + n ∨ f.lo ≠ c.cursor ∨ f.hi ≠ c.cursor + n ∨ f.lo < c.base ∨ c.top < f.hi →
        exec (.cnarrowX t rd rs1 rs2) s = .next (s₁.raise t { cause := 0x04, detail := rs1.toNat, fa := c.cursor })) ∧
      (∃ u, exec (.cdrop t rd rs1 rs2) s = .next u ∧ WritesReg s₁ u t rd (c.setRights (c.rights &&& ((s₁.thr t).reg rs2).low.setWidth 14))) ∧
      (c.has .clr = true → ∃ u, exec (.ctint t rd rs1 rs2) s = .next u ∧
        WritesReg s₁ u t rd (c.setColour (((s₁.thr t).reg rs2).low.toNat % 16))) ∧
      (c.has .clr = false → exec (.ctint t rd rs1 rs2) s = .next (s₁.raise t { cause := 0x05, detail := rs1.toNat, fa := c.cursor }))) ∧
    (Issues s t { srcs := [rs1], dests := [rd] } s₁ →
      ∃ u, exec (.cdropi t rd rs1 imm) s = .next u ∧ WritesReg s₁ u t rd (c.setRights (c.rights &&& imm))))

/-- Sealing and unsealing. CWRAP seals an unsealed rs1 with the type in the cursor of an authority rs2 that holds SEAL, types 1 to 0xFFD within its
bounds (0xFFD only with SYS); CUNWRAP unseals it under an authority that holds UNSL and points at its type, and the result keeps GL only if the
authority has GL. An authority whose cursor is 0xFFE or 0xFFF raises CAP_RIGHTS. Rests on R44, R46, R108. -/
def Obligations.CapabilitySealing : Prop :=
  ∀ (t : Tid) (rd rs1 rs2 : Reg) (s s₁ : State),
    let c := (s₁.thr t).reg rs1
    let a := (s₁.thr t).reg rs2
    Issues s t { srcs := [rs1, rs2], dests := [rd] } s₁ → c.tag = true → a.tag = true → a.seal = 0 →
    (c.seal = 0 → a.has .seal = true → 1 ≤ a.cursor → (a.cursor < 0xFFD ∨ (a.cursor = 0xFFD ∧ a.has .sys = true)) → a.base ≤ a.cursor →
      a.cursor < a.top → ∃ u, exec (.cwrap t rd rs1 rs2) s = .next u ∧ WritesReg s₁ u t rd (c.setSeal a.cursor)) ∧
    (c.seal ≠ 0 → c.seal < 0xFFD → a.has .unsl = true → a.cursor = c.seal → a.base ≤ c.seal → c.seal < a.top →
      ∃ u, exec (.cunwrap t rd rs1 rs2) s = .next u ∧
        WritesReg s₁ u t rd (if a.has .gl then c.setSeal 0 else (c.setSeal 0).dropGl)) ∧
    (a.cursor = 0xFFE ∨ a.cursor = 0xFFF → c.seal = 0 →
      exec (.cwrap t rd rs1 rs2) s = .next (s₁.raise t { cause := 0x05, detail := rs2.toNat, fa := a.cursor }))

/-- Loads outside a plate. A load that issues with nothing outstanding and whose checks pass: from DRAM through a cached page a hit writes the extended
value that the thread sees to rd, other registers unchanged, and a miss leaves the load outstanding; through a Device page it performs the device
read, and its value is written or left outstanding. PCC moves on and memory is unchanged; outside this the unit changes only where another thread
has a LIVE or COMMITTING plate, or by the device read. A failed check raises, an uncorrectable error raises MEM_UE, a line that another plate holds
PARKS the thread with its issue not counted. Rests on R48, R58, R69, R110, R174, R180, R181. -/
def Obligations.LoadResults : Prop :=
  ∀ c ∈ ([(.lb, 1, true, false), (.lbu, 1, false, false), (.lh, 2, true, false), (.lhu, 2, false, false), (.lw, 4, true, false),
      (.lwu, 4, false, false), (.ld, 8, false, false), (.lq, 16, false, false), (.lc, 16, false, true)] :
      List ((Tid → Reg → Reg → BitVec 14 → Bool → Instr) × Nat × Bool × Bool)),
    ∀ (t : Tid) (rd rs1 : Reg) (imm : BitVec 14) (hit : Bool) (s s₁ s₂ : State),
    let cap := (s₁.thr t).reg rs1
    let req := loadReq cap rs1 (cap.ea imm.toInt) c.2.1 (if c.2.2.2 then 16 else 1)
    Issues s t { srcs := [rs1], dests := [rd] } s₁ →
    (∀ segs : List Seg,
      let ps := segs.map (fun x => (x.pa, x.len))
      let tag := cap.has .ldc && loadTag s₂ t s₂.fresh ps
      s₁.check t req = (s₂, .ok segs) → (s₂.thr t).outs = [] →
      (s₂.noStop t → (s₂.thr t).st = .ready → allCached s₂ segs = true → (s₂.plate t).pdepth = 0 →
        (∃ u, exec (c.1 t rd rs1 imm true) s = .next u ∧ SameMemory s₂ u ∧ (s₂.alone t → OnlyAccess s₂ u t) ∧ OnlyRegs (s₂.thr t) (u.thr t) ∧
          MovedOn (s₂.thr t) (u.thr t) ∧ WroteReg (s₂.thr t) (u.thr t) rd (loadResult c.2.1 c.2.2.1 c.2.2.2 (s₂.viewSegs t s₂.fresh ps) tag)) ∧
        (∃ u, exec (c.1 t rd rs1 imm false) s = .next u ∧
          MakesThread s₂ u t (Thread.advance { (s₂.thr t) with outs := [{ stamp := s₂.fresh, rd := rd, te := false, kind := .load ps c.2.2.1 c.2.2.2 (cap.has .ldc) }] } 4))) ∧
      (let v := (s₂.loadDevice t ps).1
       let x := loadResult c.2.1 c.2.2.1 c.2.2.2 (s₂.loadDevice t ps).2 tag
       allCached s₂ segs = false → v.noStop t →
        (∃ u, exec (c.1 t rd rs1 imm true) s = .next u ∧ OnlyThread v u t ∧ OnlyRegs (v.thr t) (u.thr t) ∧ MovedOn (v.thr t) (u.thr t) ∧
          WroteReg (v.thr t) (u.thr t) rd x) ∧
        (∃ u, exec (c.1 t rd rs1 imm false) s = .next u ∧ OnlyThread v u t ∧ (u.thr t).regs = (v.thr t).regs ∧ MovedOn (v.thr t) (u.thr t) ∧
          (u.thr t).outs = [{ stamp := v.fresh, rd := rd, te := false, kind := .device x }]))) ∧
    (∀ e, s₁.check t req = (s₂, .exc e) → exec (c.1 t rd rs1 imm hit) s = .next (s₂.raise t e)) ∧
    (∀ d e, s₁.check t req = (s₂, .ue d e) → exec (c.1 t rd rs1 imm hit) s = .next (s₂.raiseUe t d e)) ∧
    (s₁.check t req = (s₂, .wait) → ∃ u, exec (c.1 t rd rs1 imm hit) s = .next u ∧
      MakesThread s₂ u t { (s₂.thr t) with issued := (s₂.thr t).issued - 1, sinceTick := (s₂.thr t).sinceTick - 1, st := .parked (.heldLine false) })

/-- What a load writes and what an atomic stores. The low byte, halfword, word or doubleword of a value is sign- or zero-extended to 64 bits with an
untagged, zero upper half; a 16-byte load writes all 128 bits, LC with the tag it found and LQ without. On a 32-bit or 64-bit memory value each
atomic stores the sum, logical function, signed or unsigned maximum or minimum of the old value and rs2, SWAP stores rs2, CAS stores rs2 when the
old value equals rd and leaves the bytes otherwise; rd takes the old value, a 32-bit one sign-extended. Rests on R62, R110, R114, R55. -/
def Obligations.ValuesOfLoadsAndAtomics : Prop :=
  (∀ (v : Nat) (tag : Bool),
      (v < 2 ^ 8 → loadResult 1 true false v tag = Cap.ofWord ((BitVec.ofNat 8 v).signExtend 64) ∧ loadResult 1 false false v tag = Cap.ofWord ((BitVec.ofNat 8 v).setWidth 64)) ∧
      (v < 2 ^ 16 → loadResult 2 true false v tag = Cap.ofWord ((BitVec.ofNat 16 v).signExtend 64) ∧ loadResult 2 false false v tag = Cap.ofWord ((BitVec.ofNat 16 v).setWidth 64)) ∧
      (v < 2 ^ 32 → loadResult 4 true false v tag = Cap.ofWord ((BitVec.ofNat 32 v).signExtend 64) ∧ loadResult 4 false false v tag = Cap.ofWord ((BitVec.ofNat 32 v).setWidth 64)) ∧
      loadResult 8 false false v tag = Cap.ofWord (BitVec.ofNat 64 v) ∧ loadResult 16 false false v tag = ⟨BitVec.ofNat 128 v, false⟩ ∧
      loadResult 16 false true v tag = ⟨BitVec.ofNat 128 v, tag⟩) ∧
    (∀ (size : Nat) (a : Nat) (v e : Cap) (x : Granule), size ≤ 1 →
      let w := if size = 0 then 32 else 64
      let n := w / 8
      let old : Nat := granBytes x (a % 16) n
      let b : Nat := v.bits.toNat % 2 ^ w
      let stores (op : AtomOp) (r : Nat) : Prop := atomicWrite op size a v e x = some (.bytes a (leBytes n r))
      stores .swap b ∧ stores .add ((old + b) % 2 ^ w) ∧ stores .and (old &&& b) ∧ stores .or (old ||| b) ∧ stores .xor (old ^^^ b) ∧
      stores .max (if (BitVec.ofNat w old).toInt < (BitVec.ofNat w b).toInt then b else old) ∧
      stores .min (if (BitVec.ofNat w b).toInt < (BitVec.ofNat w old).toInt then b else old) ∧
      stores .maxu (if old < b then b else old) ∧ stores .minu (if b < old then b else old) ∧
      stores .cas (if old = e.bits.toNat % 2 ^ w then b else old) ∧
      atomicResult 0 x (a % 16) = Cap.ofWord ((BitVec.ofNat 32 (granBytes x (a % 16) 4)).signExtend 64) ∧
      atomicResult 1 x (a % 16) = Cap.ofWord (BitVec.ofNat 64 (granBytes x (a % 16) 8)))

/-- Load data arrives. LOAD_DATA_ARRIVAL performs the oldest outstanding result of a READY thread that has no LIVE or COMMITTING plate, when no line of
it is held: a load writes to rd the value that the thread sees then, a Device read the value it has read; the result is no longer outstanding, PCC,
other registers and memory are unchanged, and the rest of the unit too where no other thread has a LIVE or COMMITTING plate. A long operation, an
access of a granule that an older outstanding access touches, and one with a held line do not arrive. Rests on R67, R69, R71, R168, R180. -/
def Obligations.OutstandingAccesses : Prop :=
  ∀ (t : Tid) (s : State),
    (∀ (o : Out) (r : List Out), (s.thr t).outs = o :: r → (s.thr t).st = .ready → (s.plate t).abortable = false → (s.plate t).pdepth = 0 →
      let arrives (v : Cap) : Prop := ∃ u, exec (.loadDataArrival t 0) s = .next u ∧ SameMemory s u ∧ (u.thr t).outs = r ∧ (u.thr t).pcc = (s.thr t).pcc ∧
        OnlyRegs (s.thr t) (u.thr t) ∧ WroteReg (s.thr t) (u.thr t) o.rd v ∧ (s.alone t → OnlyAccess s u t)
      (∀ c, o.kind = .device c → arrives c) ∧
      (∀ ps signed asCap ldc, o.kind = .load ps signed asCap ldc → (∀ x ∈ ps, s.heldByOther (some t) (x.1 / 16 / 4) = false) →
        arrives (loadResult (ps.foldl (fun k x => k + x.2) 0) signed asCap (s.viewSegs t o.stamp ps) (ldc && loadTag s t o.stamp ps)))) ∧
    (∀ (n : Nat) (o : Out), (s.thr t).outs[n]? = some o →
      (o.kind.isLong = true ∨ outsTouch ((s.thr t).outs.take n) o.kind.granules = true ∨
        ((s.plate t).abortable = false ∧ ∃ g ∈ o.kind.granules, s.heldByOther (some t) (g / 4) = true)) →
      exec (.loadDataArrival t n) s = .next s)

/-- Stores and paintings. A store whose checks pass joins, at DRAM through cached pages, the thread's stores that are not yet visible: the low bytes of
rs2, lowest first, at each checked segment (SC: all 128 bits and the tag); memory and registers are unchanged, and the rest of the unit too where no
other thread has a LIVE or COMMITTING plate. Through a Device page, with nothing outstanding, it performs the device write at once. PCC moves on. A
failed check raises, and a line that another plate holds PARKS the thread with its issue not counted. A painting whose checks pass, outside a plate,
joins the thread's stores that are not yet visible: one granule, or the four of a line, to take the colour rs2[3:0]; registers and memory are
unchanged and PCC moves on. A failed check raises. Rests on R48, R110, R111, R112, R170, R174, R180, R181, R57. -/
def Obligations.StoreResults : Prop :=
  (∀ c ∈ ([(.sb, 1, false), (.sh, 2, false), (.sw, 4, false), (.sd, 8, false), (.sq, 16, false), (.sc, 16, true)] :
        List ((Tid → Reg → Reg → BitVec 14 → Instr) × Nat × Bool)),
      ∀ (t : Tid) (rs2 rs1 : Reg) (imm : BitVec 14) (s s₁ s₂ : State),
      let cap := (s₁.thr t).reg rs1
      let v := (s₁.thr t).reg rs2
      let a := cap.ea imm.toInt
      let req := storeReq cap rs1 a c.2.1 (if c.2.2 then 16 else 1) (if c.2.2 then capStoreRights v else [])
      Issues s t { srcs := [rs1, rs2] } s₁ →
      (∀ segs : List Seg, s₁.check t req = (s₂, .ok segs) →
        let ws := if c.2.2 then segs.map (fun x => GWrite.cap (x.pa / 16) v) else segWrites segs (leBytes c.2.1 v.bits.toNat) a
        let w := (s₂.storeDevice t (segs.map (fun x => (x.pa, ((leBytes c.2.1 v.bits.toNat).drop (x.va - a)).take x.len))) (if c.2.2 then some v else none)).after
        (s₂.noStop t → (s₂.thr t).st = .ready → allCached s₂ segs = true → (s₂.plate t).pdepth = 0 →
          ∃ u, exec (c.1 t rs2 rs1 imm) s = .next u ∧ SameMemory s₂ u ∧ (s₂.alone t → OnlyAccess s₂ u t) ∧
            u.thr t = Thread.advance { (s₂.thr t) with stores := (s₂.thr t).stores ++ [{ stamp := s₂.fresh, writes := ws, device := false }] } 4) ∧
        (allCached s₂ segs = false → (s₂.thr t).outs = [] → w.noStop t →
          ∃ u, exec (c.1 t rs2 rs1 imm) s = .next u ∧ MakesThread w u t ((w.thr t).advance 4))) ∧
      (∀ e, s₁.check t req = (s₂, .exc e) → exec (c.1 t rs2 rs1 imm) s = .next (s₂.raise t e)) ∧
      (s₁.check t req = (s₂, .wait) → ∃ u, exec (c.1 t rs2 rs1 imm) s = .next u ∧
        MakesThread s₂ u t { (s₂.thr t) with issued := (s₂.thr t).issued - 1, sinceTick := (s₂.thr t).sinceTick - 1, st := .parked (.heldLine false) })) ∧
    (∀ c ∈ ([(.cpaint, 16), (.cpaintL, 64)] : List ((Tid → Reg → Reg → Instr) × Nat)),
      ∀ (t : Tid) (rs1 rs2 : Reg) (s s₁ s₂ : State), Issues s t { srcs := [rs1, rs2] } s₁ →
        (∀ segs : List Seg, s₁.check t (paintReq ((s₁.thr t).reg rs1) rs1 c.2) = (s₂, .ok segs) → s₂.noStop t → (s₂.thr t).st = .ready → allCached s₂ segs = true →
          (s₂.plate t).pdepth = 0 →
          ∃ u, exec (c.1 t rs1 rs2) s = .next u ∧ SameMemory s₂ u ∧ (s₂.alone t → OnlyAccess s₂ u t) ∧
            u.thr t = Thread.advance { (s₂.thr t) with stores := (s₂.thr t).stores ++
              [{ stamp := s₂.fresh, writes := segs.map (fun x => .paint (x.pa / 16) (((s₁.thr t).reg rs2).low.setWidth 4)), device := false }] } 4) ∧
        (∀ e, s₁.check t (paintReq ((s₁.thr t).reg rs1) rs1 c.2) = (s₂, .exc e) → exec (c.1 t rs1 rs2) s = .next (s₂.raise t e)))

/-- A store becomes visible. STORE_COMPLETE of the oldest pending store of a READY thread, which nothing earlier holds back: a data store inside one
granule writes exactly its bytes, lowest address first, clears that granule's tag and keeps its colour; every other byte, tag and colour of memory
is unchanged. A capability store writes the granule and its tag, a painting of a granule zeroes it, clears its tag and sets its colour, and no other
granule changes. One that must wait for an earlier access or a held line leaves the whole state alone. Rests on R6, R55, R56, R57, R168, R170, R180. -/
def Obligations.StoreVisibility : Prop :=
  ∀ (t : Tid) (s : State) (p : PStore) (r : List PStore), (s.thr t).st = .ready → (s.thr t).stores = p :: r →
    (storeMayComplete s t 0 p = false → exec (.storeComplete t 0) s = .next s) ∧ (
    storeMayComplete s t 0 p = true →
    (∀ a d, p.writes = [.bytes a d] → a % 16 + d.length ≤ 16 →
      ∃ u, exec (.storeComplete t 0) s = .next u ∧ (u.thr t).stores = r ∧
        (∀ x, u.byteAt x = if a ≤ x ∧ x < a + d.length then d.getD (x - a) 0 else s.byteAt x) ∧
        (∀ g, (u.granuleAt g).tag = (if g = a / 16 then false else (s.granuleAt g).tag) ∧ (u.granuleAt g).colour = (s.granuleAt g).colour)) ∧
    (∀ g c, p.writes = [.cap g c] → ∃ u, exec (.storeComplete t 0) s = .next u ∧
      ∀ k, u.granuleAt k = if k = g then { data := c.bits, tag := c.tag, colour := (s.granuleAt g).colour } else s.granuleAt k) ∧
    (∀ g c, p.writes = [.paint g c] → ∃ u, exec (.storeComplete t 0) s = .next u ∧
      ∀ k, u.granuleAt k = if k = g then { data := 0, tag := false, colour := c } else s.granuleAt k))

/-- Loads and stores inside a plate. Inside a plate, with nothing outstanding and room in the L2, the read set and the plate buffer: a load of one DRAM
granule that hits writes rd and adds its line to the read set, and a store to one DRAM granule puts the granule with its new bytes, or the
capability, into the plate's writes. PCC moves on; memory, other registers and every other thread are unchanged. Rests on R193, R194, R195, R196. -/
def Obligations.PlateAccesses : Prop :=
  ∀ (t : Tid) (rd rs1 rs2 : Reg) (imm : BitVec 14) (s s₁ s₂ : State) (x : Seg),
    let cap := (s₁.thr t).reg rs1
    let v := (s₁.thr t).reg rs2
    let a := cap.ea imm.toInt
    let line := x.pa / 64
    s₂.noStop t → (s₂.thr t).st = .ready → (s₂.plate t).pdepth ≠ 0 → allCached s₂ [x] = true → (s₂.thr t).outs = [] → s₂.movingLine line = false →
    (Map.get [] s₂.l2 (clusterOf t)).length < 16 → (s₂.plate t).reads.length < 1024 → s₂.bufferUsed (tileOf t) < 256 →
    (∀ c ∈ ([(.lb, 1, true, false), (.lbu, 1, false, false), (.lh, 2, true, false), (.lhu, 2, false, false), (.lw, 4, true, false),
      (.lwu, 4, false, false), (.ld, 8, false, false), (.lq, 16, false, false), (.lc, 16, false, true)] :
      List ((Tid → Reg → Reg → BitVec 14 → Bool → Instr) × Nat × Bool × Bool)), Issues s t { srcs := [rs1], dests := [rd] } s₁ →
      s₁.check t (loadReq cap rs1 a c.2.1 (if c.2.2.2 then 16 else 1)) = (s₂, .ok [x]) →
      ∃ u, exec (c.1 t rd rs1 imm true) s = .next u ∧ OnlyAccess s₂ u t ∧ MovedOn (s₂.thr t) (u.thr t) ∧ line ∈ (u.plate t).reads ∧
        (∀ l, l ∈ (u.plate t).reads → l = line ∨ l ∈ (s₂.plate t).reads) ∧ (u.plate t).writes = (s₂.plate t).writes ∧
        WroteReg (s₂.thr t) (u.thr t) rd (loadResult c.2.1 c.2.2.1 c.2.2.2 (s₂.viewSegs t s₂.fresh [(x.pa, x.len)])
          (cap.has .ldc && loadTag s₂ t s₂.fresh [(x.pa, x.len)]))) ∧
    (∀ c ∈ ([(.sb, 1, false), (.sh, 2, false), (.sw, 4, false), (.sd, 8, false), (.sq, 16, false), (.sc, 16, true)] :
      List ((Tid → Reg → Reg → BitVec 14 → Instr) × Nat × Bool)), Issues s t { srcs := [rs1, rs2] } s₁ →
      s₁.check t (storeReq cap rs1 a c.2.1 (if c.2.2 then 16 else 1) (if c.2.2 then capStoreRights v else [])) = (s₂, .ok [x]) → x.va = a → x.len = c.2.1 →
      ∃ u, exec (c.1 t rs2 rs1 imm) s = .next u ∧ OnlyAccess s₂ u t ∧ MovedOn (s₂.thr t) (u.thr t) ∧ (u.thr t).regs = (s₂.thr t).regs ∧
        (u.plate t).reads = (s₂.plate t).reads ∧ (∀ g, g ≠ x.pa / 16 → Map.find (u.plate t).writes g = Map.find (s₂.plate t).writes g) ∧
        Map.find (u.plate t).writes (x.pa / 16) = some (granApply (s₂.viewGranule t s₂.fresh (x.pa / 16))
          (if c.2.2 then .cap (x.pa / 16) v else .bytes x.pa (leBytes c.2.1 v.bits.toNat))))

/-- A local capability goes only where STL admits it. Storing a tagged capability without GL, by SC or by SWAP or CAS of a capability, through a tagged,
unsealed capability that holds every other right of the store but not STL raises CAP_RIGHTS, with the register and the address; with STL the checks
of the capability pass. States R42. -/
def Obligations.LocalCapabilityStores : Prop :=
  ∀ (t : Tid) (rd rs1 rs2 : Reg) (imm : BitVec 14) (aq rl hit : Bool) (s s₁ : State),
    let cap := (s₁.thr t).reg rs1
    let v := (s₁.thr t).reg rs2
    let a := cap.ea imm.toInt
    let raises (i : Instr) (fa : Nat) : Prop := exec i s = .next (s₁.raise t { cause := 0x05, detail := rs1.toNat, fa := fa })
    let fits (b : Nat) : Prop := cap.base ≤ b ∧ b + 16 ≤ cap.top ∧ b % 16 = 0
    v.tag = true → v.has .gl = false → cap.tag = true → cap.seal = 0 →
    (cap.has .stl = false →
      (Issues s t { srcs := [rs1, rs2] } s₁ → raises (.sc t rs2 rs1 imm) a) ∧
      (Issues s t { srcs := [rs1, rs2], dests := [rd] } s₁ → raises (.atomicSwap t rd rs1 rs2 aq rl 3 hit) cap.cursor) ∧
      (Issues s t { srcs := [rs1, rs2, rd], dests := [rd] } s₁ → raises (.cas t rd rs1 rs2 aq rl 3 hit) cap.cursor)) ∧
    (cap.has .stl = true → cap.has .st = true → cap.has .stc = true →
      (fits a → checkCap (storeReq cap rs1 a 16 16 (capStoreRights v)) = none) ∧
      (cap.has .ld = true → cap.has .ldc = true → fits cap.cursor → checkCap (atomicReq cap rs1 16 (.ldc :: capStoreRights v)) = none))

/-- The colour check. For an access to a Normal or Durable page of DRAM that is not in error, check 10 passes exactly when the capability's colour is
the granule's colour or the granule has the open colour 15; it fails with COLOUR, DETAIL 16 × c + g and the address. A capability of colour 15
passes only at open granules. States R53. -/
def Obligations.ColourCheck : Prop :=
  ∀ (s : State) (t : Tid) (stamp : Nat) (q : Req) (x : Seg), q.paint = false → x.ptype ≠ .device → s.isDram x.pa = true →
    s.ueFor t q.want (x.pa / 64) = false →
    let g := s.colourFor t stamp q.want.ex (x.pa / 16)
    (checkColour s t stamp q x = none ↔ q.cap.colour = g ∨ g = 15) ∧
    (q.cap.colour ≠ g → g ≠ 15 → checkColour s t stamp q x = some { cause := 0x07, detail := q.cap.colour.toNat * 16 + g.toNat, fa := q.addr }) ∧
    (q.cap.colour = 15 → (checkColour s t stamp q x = none ↔ g = 15))

/-- PREF and speculative accesses. PREF moves PCC on, raises nothing and changes no register and no memory, whether its address passes the checks or
not; a speculative access of the unit changes no thread and no memory. Rests on R113, R182. -/
def Obligations.PrefetchIsSilent : Prop :=
  (∀ (t : Tid) (rs1 : Reg) (imm : BitVec 14) (w : Bool) (s s₁ : State), Issues s t { srcs := [rs1] } s₁ →
      ∃ u, exec (.pref t rs1 imm w) s = .next u ∧ SameMemory s₁ u ∧ u.thr t = (s₁.thr t).advance 4 ∧ ∀ x, x ≠ t → u.thr x = s₁.thr x) ∧
    (∀ (t : Tid) (va : BitVec 54) (fetch : Bool) (s : State), ∃ u, exec (.speculativeAccess t va fetch) s = .next u ∧ SameMemory s u ∧ ∀ x, u.thr x = s.thr x)

/-- Atomics outside a plate. An atomic whose checks pass, with nothing earlier of its thread outstanding or pending: at DRAM a hit is one event, rd
takes the old value and the granule its new one (CAS that compares unequal: the old bytes); every other granule, and the rest of the unit where no
other thread has a LIVE or COMMITTING plate, is unchanged. A miss leaves it outstanding. At an address with no DRAM rd takes zero and event 0x0404
is recorded. PCC moves on. A failed check raises. Rests on R30, R114, R168, R175. -/
def Obligations.AtomicResults : Prop :=
  ∀ c ∈ ([(.atomicSwap, .swap), (.atomicAdd, .add), (.atomicAnd, .and), (.atomicOr, .or), (.atomicXor, .xor), (.atomicMax, .max),
      (.atomicMin, .min), (.atomicMaxu, .maxu), (.atomicMinu, .minu), (.cas, .cas)] :
      List ((Tid → Reg → Reg → Reg → Bool → Bool → BitVec 4 → Bool → Instr) × AtomOp)),
    ∀ (t : Tid) (rd rs1 rs2 : Reg) (aq rl hit : Bool) (size : BitVec 4) (s s₁ s₂ : State),
    let cap := (s₁.thr t).reg rs1
    let v := (s₁.thr t).reg rs2
    let n := atomicBytes size.toNat
    let req := atomicReq cap rs1 n (if size = 3 then .ldc :: capStoreRights v else [])
    Issues s t { illegal := atomicIllegal c.2 size, srcs := if c.2 = .cas then [rs1, rs2, rd] else [rs1, rs2], dests := [rd] } s₁ →
    (∀ x : Seg, s₁.check t req = (s₂, .ok [x]) → s₂.noStop t → (s₂.thr t).st = .ready → (s₂.thr t).outs = [] → (s₂.thr t).stores = [] →
      let old := s₂.granuleAt (x.pa / 16)
      (s₂.isDram x.pa = true → (s₂.plate t).pdepth = 0 → (s₂.plate t).writes = [] →
        (∃ u, exec (c.1 t rd rs1 rs2 aq rl size true) s = .next u ∧ MovedOn (s₂.thr t) (u.thr t) ∧ OnlyRegs (s₂.thr t) (u.thr t) ∧
          WroteReg (s₂.thr t) (u.thr t) rd (atomicResult size.toNat old (x.pa % 16)) ∧
          (s₂.alone t → OnlyAccess s₂ { u with mem := s₂.mem, gran := s₂.gran } t) ∧
          ∀ g, u.granuleAt g = if g = x.pa / 16 then
            (match atomicWrite c.2 size.toNat x.pa v ((s₂.thr t).reg rd) old with
              | some w => granApply old w
              | none => old) else s₂.granuleAt g) ∧
        (∃ u, exec (c.1 t rd rs1 rs2 aq rl size false) s = .next u ∧ MakesThread s₂ u t (Thread.advance { (s₂.thr t) with
          outs := [{ stamp := s₂.fresh, rd := rd, te := false, kind := .atomic c.2 size.toNat x.pa v ((s₂.thr t).reg rd) aq rl }] } 4))) ∧
      (s₂.isDram x.pa = false → ∃ u, exec (c.1 t rd rs1 rs2 aq rl size hit) s = .next u ∧ OnlyThread (s₂.reservedEvent (.tile t) x.pa) u t ∧
        WroteReg (s₂.thr t) (u.thr t) rd Cap.null ∧ MovedOn (s₂.thr t) (u.thr t))) ∧
    (∀ e, s₁.check t req = (s₂, .exc e) → exec (c.1 t rd rs1 rs2 aq rl size hit) s = .next (s₂.raise t e))

/-- FENCE, SYNC and SYNC.I. With none of the accesses that its mask names outstanding, or inside a plate, FENCE only moves PCC on, otherwise the thread
is WAITING; SYNC with nothing outstanding applies the pending register writes, otherwise waits; SYNC.I with no store and no atomic outstanding makes
its own thread fetch every line of the instruction cache again and changes nothing else, otherwise waits, and inside a plate raises PLATE_ILLEGAL.
Rests on R92, R115, R116, R173, R176, R183, R191. -/
def Obligations.FenceResults : Prop :=
  ∀ (t : Tid) (mask : BitVec 4) (s s₁ : State), Issues s t {} s₁ →
    let th := s₁.thr t
    (mask.toNat / 4 ≠ 0 → mask.toNat % 4 ≠ 0 →
      (th.fenceHolds mask = false ∨ th.plate.pdepth ≠ 0 → ∃ u, exec (.fence t mask) s = .next u ∧ MakesThread s₁ u t (th.advance 4)) ∧
      (th.fenceHolds mask = true → th.plate.pdepth = 0 → ∃ u, exec (.fence t mask) s = .next u ∧ MakesThread s₁ u t { th with st := .waiting (.fence mask) })) ∧
    (th.outs = [] → ∃ u, exec (.sync t) s = .next u ∧ MakesThread s₁ u t (th.applySync.advance 4)) ∧
    (th.outs ≠ [] → ∃ u, exec (.sync t) s = .next u ∧ MakesThread s₁ u t { th with st := .waiting .sync }) ∧
    (th.plate.pdepth = 0 → th.storesOut = false → ∃ u, exec (.syncI t) s = .next u ∧
      MakesThread s₁ u t (Thread.advance { th with refetch := (s₁.tile (tileOf t)).l1i.map (fun x => x.1) } 4)) ∧
    (th.plate.pdepth = 0 → th.storesOut = true → ∃ u, exec (.syncI t) s = .next u ∧ MakesThread s₁ u t { th with st := .waiting .syncI }) ∧
    (th.plate.pdepth ≠ 0 → exec (.syncI t) s = .next (s₁.raise t { cause := 0x1A }))

/-- SYSC, BRK and WCALL. Outside a plate SYSC raises SYSCALL and BRK raises BREAKPOINT with PCC already at the next instruction; a claimed BRK stops the
thread there instead. WCALL through a sealed entry of type 0xFFD to a page of the other world changes world, level and PCC in one event, clears TSTK
and TESTK and leaves everything else; a sealed entry that does not translate there, or leads to a page of another world, raises WCALL_TARGET. Inside
a plate SYSC and an unclaimed BRK abort it with their cause and raise, and WCALL raises PLATE_ILLEGAL. Rests on R118, R191, R206, R279, R284, R413. -/
def Obligations.SystemCalls : Prop :=
  ∀ (t : Tid) (rs1 : Reg) (s s₁ : State),
    let th := s₁.thr t
    let c := th.reg rs1
    let other : World := if th.world = .main then .vault else .main
    let lv : Level := if c.has .sys then .supervisor else .user
    (Issues s t {} s₁ →
      (th.plate.pdepth = 0 → exec (.sysc t) s = .next ((s₁.modThr t (fun th => th.advance 4)).raise t { cause := 0x15 })) ∧
      (th.plate.pdepth = 0 → th.brkClaim = false → exec (.brk t) s = .next ((s₁.modThr t (fun th => th.advance 4)).raise t { cause := 0x19 })) ∧
      (th.plate.pdepth = 0 → th.brkClaim = true → ∃ u, exec (.brk t) s = .next u ∧ MakesThread s₁ u t { th.advance 4 with st := .stopped }) ∧
      (th.plate.pdepth ≠ 0 → exec (.sysc t) s = .next (s₁.raise t { cause := 0x15 })) ∧
      (th.plate.pdepth ≠ 0 → th.brkClaim = false → exec (.brk t) s = .next (s₁.raise t { cause := 0x19 }))) ∧
    (Issues s t { srcs := [rs1] } s₁ →
      (th.plate.pdepth ≠ 0 → exec (.wcall t rs1) s = .next (s₁.raise t { cause := 0x1A })) ∧
      (th.plate.pdepth = 0 → c.tag = true → c.seal = 0xFFD → c.has .ex = true → c.cursor % 4 = 0 → ∀ s₂ : State,
        (∀ x, s₁.translateAs t other lv c.cursor ⟨false, false, true⟩ false = (s₂, .ok x) →
          (x.world = other → s₂.noStop t → ∃ u, exec (.wcall t rs1) s = .next u ∧
            MakesThread s₂ u t { (s₂.thr t) with world := other, level := lv, pcc := c.setSeal 0, tstk := Cap.null, testk := Cap.null }) ∧
          (x.world ≠ other → exec (.wcall t rs1) s = .next (s₂.raise t { cause := 0x16, detail := 2, fa := c.cursor }))) ∧
        (∀ x d, s₁.translateAs t other lv c.cursor ⟨false, false, true⟩ false = (s₂, .exc x d) →
          exec (.wcall t rs1) s = .next (s₂.raise t { cause := 0x16, detail := 1, fa := c.cursor }))))

/-- ERET. At supervisor level ERET loads the eight granules of the frame through g1; when the first is a sealed status granule of type 0xFFF for the
current world and a legal level, it restores PCC, PKEYS, level and IPL and g31, g1, g2, g3 in one event; a first granule that is not tagged and of
type 0xFFF raises FRAME_FORGED, and one for another world or an illegal level cause 0x14, each with event 0x0A01. Rests on R276, R283. -/
def Obligations.ExceptionReturn : Prop :=
  ∀ (t : Tid) (s s₁ s₂ : State) (segs : List Seg), Issues s t { supervisor := true, srcs := [1], dests := [1, 2, 3, 31] } s₁ → (s₁.plate t).pdepth = 0 →
    frameChecks s₁ t ((s₁.thr t).reg 1) 8 0 = (s₂, .ok segs) →
    let r := frameValues s₂ t (((s₁.thr t).reg 1).has .ldc) segs
    let f (i : Nat) : Cap := (r.2[i]?).getD Cap.null
    r.1.noStop t →
    ((f 0).tag = true → (f 0).seal = 0xFFF → (f 0).cursor % 4 ≤ 1 → ((f 0).cursor / 4 % 2 = 1 ↔ (s₁.thr t).world = .vault) →
      ∃ u, exec (.eret t) s = .next u ∧ OnlyThread r.1 u t ∧ (u.thr t).pcc = f 1 ∧ (u.thr t).pkeys = (f 3).bits ∧
        (u.thr t).level = (if (f 0).cursor % 4 = 1 then .supervisor else .user) ∧ (u.thr t).ipl = BitVec.ofNat 4 ((f 0).cursor / 16) ∧
        (u.thr t).world = (r.1.thr t).world ∧ (u.thr t).rstack = (r.1.thr t).rstack ∧
        ∀ k, (u.thr t).reg k = if k = 31 then f 4 else if k = 1 then f 5 else if k = 2 then f 6 else if k = 3 then f 7 else (r.1.thr t).reg k) ∧
    (let bad (cause : Nat) : Prop := exec (.eret t) s = .next ((r.1.event 0x0A01 1 t.toNat [(2, t.toNat), (1, cause), (8, ((s₁.thr t).reg 1).cursor)]).raise t
        { cause := cause, fa := ((s₁.thr t).reg 1).cursor })
     ((f 0).tag = false ∨ (f 0).seal ≠ 0xFFF → bad 0x13) ∧
     ((f 0).tag = true → (f 0).seal = 0xFFF → (1 < (f 0).cursor % 4 ∨ ¬ ((f 0).cursor / 4 % 2 = 1 ↔ (s₁.thr t).world = .vault)) → bad 0x14))

/-- TSTART, its answer and TEXIT. TSTART of a usable entry capability makes the caller WAITING for the target tile. The answer starts an EMPTY thread of
a tile in the plan and awake: READY at the entry, with the argument in g1, the caller's world, TGRP, RSCFG mode, TROOTs and PKLOCK, and rd takes 0;
the EVEC, STK and ESTK of that world are the caller's EVEC, TSTK and TESTK, and the caller's TSTK and TESTK are null; a thread that is not EMPTY
answers 1, a tile outside the plan 2, and a tile that is not awake wakes first. TEXIT with nothing outstanding empties the thread. Rests on R65,
R119, R120, R253, R274. -/
def Obligations.ThreadStart : Prop :=
  (∀ (t : Tid) (rd rs1 rs2 : Reg) (s s₁ : State), Issues s t { supervisor := true, srcs := [rd, rs1, rs2], dests := [rd] } s₁ →
      let th := s₁.thr t
      th.plate.pdepth = 0 → (th.reg rs1).tag = true → (th.reg rs1).seal = 0 → (th.reg rs1).has .ex = true → (th.reg rs1).cursor % 4 = 0 →
      ∃ u, exec (.tstart t rd rs1 rs2) s = .next u ∧ MakesThread s₁ u t { th with st := .waiting (.tstart rd ((th.reg rd).low.setWidth 9)
        (if (th.reg rd).low.getLsbD 9 then .supervisor else .user) (th.reg rs1) (th.reg rs2)) }) ∧
    (∀ (c target : Tid) (rd : Reg) (lv : Level) (entry arg : Cap) (s : State), (s.thr c).st = .waiting (.tstart rd target lv entry arg) → target ≠ c →
      s.power (tileOf c) = .active → s.noStop c →
      ((s.rget .planTiles).getLsbD (tileOf target) = true → (s.thr target).st = .empty → s.power (tileOf target) = .active →
        ∃ u, exec (.tstartAnswer c) s = .next u ∧ (u.thr c).st = .ready ∧ WroteReg (s.thr c) (u.thr c) rd (Cap.ofWord 0) ∧ MovedOn (s.thr c) (u.thr c) ∧
          (u.thr target).st = .ready ∧ (u.thr target).pcc = entry ∧ (u.thr target).reg 1 = arg ∧ (u.thr target).world = (s.thr c).world ∧
          (u.thr target).level = lv ∧ (u.thr target).tgrp = (s.thr c).tgrp ∧ (u.thr target).rsMode = (s.thr c).rsMode ∧
          (u.thr target).trootM = (s.thr c).trootM ∧ (u.thr target).trootV = (s.thr c).trootV ∧ (u.thr target).pklock = (s.thr c).pklock ∧
          (u.thr target).evec (s.thr c).world = (s.thr c).evec (s.thr c).world ∧ (u.thr target).stk (s.thr c).world = (s.thr c).tstk ∧
          (u.thr target).estk (s.thr c).world = (s.thr c).testk ∧ (u.thr c).tstk = Cap.null ∧ (u.thr c).testk = Cap.null ∧
          (u.thr target).rstack = [] ∧ ∀ k, k ≠ 1 → (u.thr target).reg k = Cap.null) ∧
      ((s.rget .planTiles).getLsbD (tileOf target) = true → (s.thr target).st = .empty → s.power (tileOf target) ≠ .active →
        exec (.tstartAnswer c) s = .next (s.setPower (tileOf target) .waking)) ∧
      ((s.rget .planTiles).getLsbD (tileOf target) = true → (s.thr target).st ≠ .empty →
        ∃ u, exec (.tstartAnswer c) s = .next u ∧ WroteReg (s.thr c) (u.thr c) rd (Cap.ofWord 1) ∧ u.thr target = s.thr target) ∧
      ((s.rget .planTiles).getLsbD (tileOf target) = false →
        ∃ u, exec (.tstartAnswer c) s = .next u ∧ WroteReg (s.thr c) (u.thr c) rd (Cap.ofWord 2) ∧ u.thr target = s.thr target)) ∧
    (∀ (t : Tid) (s s₁ : State), Issues s t {} s₁ → (s₁.plate t).pdepth = 0 → (s₁.thr t).outs = [] →
      ∃ u, exec (.texit t) s = .next u ∧ (u.thr t).st = .empty ∧ (u.thr t).rstack = [] ∧ (∀ r, (u.thr t).reg r = Cap.null) ∧ SameMemory s₁ u)

/-- INVAL.V. INVAL.V with no store and no atomic outstanding starts a broadcast and makes its thread WAITING, its PCC kept; one that names the Vault
world from the Main world raises PRIV. A cluster that acknowledges keeps exactly the translations that the operand does not name, and so does a tile
that has not removed any yet; a tile with an access outstanding that it translated before does not acknowledge. The last acknowledgement completes
the instruction. Rests on R118, R259, R260. -/
def Obligations.BroadcastInvalidation : Prop :=
  (∀ (t : Tid) (rs1 : Reg) (s s₁ : State), Issues s t { supervisor := true, srcs := [rs1] } s₁ → (s₁.plate t).pdepth = 0 →
      let op := ((s₁.thr t).reg rs1).low
      ((s₁.thr t).storesOut = false → (op.getLsbD 1 = false ∨ (s₁.thr t).world = .vault) →
        ∃ u, exec (.invalV t rs1) s = .next u ∧ (u.thr t).st = .waiting .inval ∧ (u.thr t).pcc = (s₁.thr t).pcc ∧ SameMemory s₁ u ∧
          ∃ i, u.invals = s₁.invals ++ [i] ∧ i.tid = t ∧ i.operand = op ∧ i.gone = []) ∧
      (op.getLsbD 1 = true → (s₁.thr t).world = .main → exec (.invalV t rs1) s = .next (s₁.raise t { cause := 0x02 }))) ∧
    (∀ (t : Tid) (n : Nat) (s : State) (i : Inval), s.invals = [i] → i.tid = t → n ∈ i.clusters →
      let i' : Inval := { i with clusters := i.clusters.filter (fun x => decide (x ≠ n)) }
      ∃ u, exec (.invalVAcknowledge t (.cluster n)) s = .next u ∧
        Map.get [] u.ctlb n = (Map.get [] s.ctlb n).filter (fun x => !invalMatches i.operand x) ∧
        (i'.tiles = [] → i'.clusters = [] → (s.thr t).st = .waiting .inval → s.noStop t →
          u.invals = [] ∧ (u.thr t).st = .ready ∧ MovedOn (s.thr t) (u.thr t)) ∧
        (i'.tiles ≠ [] ∨ i'.clusters ≠ [] → u.invals = [i'] ∧ u.thr t = s.thr t)) ∧
    (∀ (t : Tid) (n : Nat) (s : State) (i : Inval), s.invals = [i] → i.tid = t → n ∈ i.tiles → i.gone = [] →
      let i' : Inval := { i with gone := [(n, s.fresh + 1)] }
      let i'' : Inval := { i' with tiles := i.tiles.filter (fun x => decide (x ≠ n)) }
      ∃ u, exec (.invalVAcknowledge t (.tile n)) s = .next u ∧ (u.tile n).tlb = (s.tile n).tlb.filter (fun x => !invalMatches i.operand x) ∧
        (tileBusy s n (s.fresh + 1) = true → u.invals = [i'] ∧ u.thr t = s.thr t) ∧
        (tileBusy s n (s.fresh + 1) = false →
          (i''.tiles = [] → i''.clusters = [] → (s.thr t).st = .waiting .inval → s.noStop t → u.invals = [] ∧ (u.thr t).st = .ready ∧ MovedOn (s.thr t) (u.thr t)) ∧
          (i''.tiles ≠ [] ∨ i''.clusters ≠ [] → u.invals = [i''] ∧ u.thr t = s.thr t)))

/-- CRR and CRW. CRR of a control register that the thread may read writes its value to rd, and CRW of one that it may write sets it, PCC moving on: TID
names the unit and the thread, TIMENOW the TIME ticks, MCTL keeps its reserved bits zero, and the RWS registers TGRP, RSCFG, IPL, TROOT and PKLOCK
keep the value in effect, hold the new one for CRR at once and have it in effect after SYNC. Rests on R86, R87, R88, R90, R92, R121, R128. -/
def Obligations.ControlRegisters : Prop :=
  ∀ (t : Tid) (rd rs1 : Reg) (cr : BitVec 14) (c : Cr) (s s₁ : State), crOf cr = some c →
    (Issues s t (crrPre rd cr) s₁ → ∃ u, exec (.crr t rd cr) s = .next u ∧ WritesReg s₁ u t rd (s₁.crRead t c)) ∧
    (Issues s t (crwPre cr rs1) s₁ → ¬ (c = .tgrp ∧ (s₁.plate t).pdepth ≠ 0) →
      ∃ u, exec (.crw t cr rs1) s = .next u ∧ MakesThread s₁ u t (((s₁.thr t).crWrite c ((s₁.thr t).reg rs1)).advance 4)) ∧
    s.crRead t .tid = Cap.ofWord (BitVec.ofNat 64 (s.rfield .sdAddr 0 10 * 512 + t.toNat)) ∧ s.crRead t .timenow = Cap.ofWord (BitVec.ofNat 64 s.timeNow) ∧
    (∀ v : Cap,
      let w (c : Cr) : State := s.modThr t (fun th => th.crWrite c v)
      let now (c : Cr) : Thread := (w c).thr t
      let synced (c : Cr) : Thread := (now c).applySync
      let root : Word := v.low &&& 0x3FFFFFFFDFFF
      ((w .tgrp).crRead t .tgrp = Cap.ofWord (BitVec.ofNat 64 (v.low.toNat % 16)) ∧ (now .tgrp).tgrp = (s.thr t).tgrp ∧ (synced .tgrp).tgrp = v.low.setWidth 4) ∧
      ((now .rscfg).rsMode = (s.thr t).rsMode ∧ (synced .rscfg).rsMode = v.low.getLsbD 0) ∧
      ((w .ipl).crRead t .ipl = Cap.ofWord (BitVec.ofNat 64 (v.low.toNat % 16)) ∧ (now .ipl).ipl = (s.thr t).ipl ∧ (synced .ipl).ipl = v.low.setWidth 4) ∧
      ((w .trootM).crRead t .trootM = Cap.ofWord root ∧ (now .trootM).trootM = (s.thr t).trootM ∧ (synced .trootM).trootM = root) ∧
      ((w .trootV).crRead t .trootV = Cap.ofWord root ∧ (now .trootV).trootV = (s.thr t).trootV ∧ (synced .trootV).trootV = root) ∧
      ((w .pklock).crRead t .pklock = Cap.ofWord v.low ∧ (now .pklock).pklock = (s.thr t).pklock ∧ (synced .pklock).pklock = v.low)) ∧
    (∀ v : Cap, ((s.thr t).crWrite .mctl v).mctl &&& 0xFFFFFFFFFFF08E00 = 0)

/-- Control registers of 128 bits. CRR and CRW of registers 0x100 to 0x106, 0x108 and 0x109 move all 128 bits with the tag: what CRW stores of any
value, tagged or not, sealed or not, CRR returns. States R272. -/
def Obligations.CapabilityControlRegisters : Prop :=
  ∀ n ∈ ([0x100, 0x101, 0x102, 0x104, 0x105, 0x106, 0x108, 0x109] : List (BitVec 14)), ∃ c, crOf n = some c ∧
    ∀ (t : Tid) (rd rs1 : Reg) (s s₁ : State),
      (Issues s t (crwPre n rs1) s₁ → ∃ u, exec (.crw t n rs1) s = .next u ∧ u.crRead t c = (s₁.thr t).reg rs1 ∧ MovedOn (s₁.thr t) (u.thr t) ∧
        OnlyThread s₁ u t ∧ (u.thr t).regs = (s₁.thr t).regs) ∧
      (Issues s t (crrPre rd n) s₁ → ∃ u, exec (.crr t rd n) s = .next u ∧ WritesReg s₁ u t rd (s₁.crRead t c))

/-- MADD and MSUB never round. Whatever legal scale and rounding fields they carry, MADD and MSUB of two well-formed amounts write the exact sum or
difference, set no flag and move PCC on; only beyond 10^36 - 1 do they differ, where they saturate with MSAT and MINX, or raise OVERFLOW when the
trap is enabled. A scale or rounding code that R82 does not admit raises ILLEGAL_OP. States R135. -/
def Obligations.MoneySums : Prop :=
  (∀ (t : Tid) (rd rs1 rs2 : Reg) (scale : BitVec 6) (round : BitVec 3) (te : Bool) (s s₁ : State) (a b : Int),
    let th := s₁.thr t
    let wrote (i : Instr) (q : Quad) (f : Word) : Prop :=
      ∃ u, exec i s = .next u ∧ MakesThread s₁ u t (Thread.advance { ((th.dropOlder s₁.fresh [rd]).setReg rd (Cap.ofQuad q)) with mctl := th.mctl ||| f } 4)
    Issues s t (moneyPre rd rs1 rs2 scale round false) s₁ → moneyOperand (th.reg rs1).bits = .value a → moneyOperand (th.reg rs2).bits = .value b →
    ∀ c ∈ ([(.madd t rd rs1 rs2 scale round te, a + b), (.msub t rd rs1 rs2 scale round te, a - b)] : List (Instr × Int)),
      (c.2.natAbs < 10 ^ 36 → wrote c.1 (moneyEncode c.2) 0) ∧
      (10 ^ 36 ≤ c.2.natAbs → te = true → th.mctl.getLsbD 12 = true → exec c.1 s = .next (s₁.raise t { cause := 0x0F })) ∧
      (10 ^ 36 ≤ c.2.natAbs → (te = false ∨ th.mctl.getLsbD 12 = false) →
        wrote c.1 (moneyEncode (if c.2 < 0 then -(10 ^ 36 - 1) else 10 ^ 36 - 1)) 0x90000)) ∧
    (∀ (s s₁ : State) (t : Tid) (segs : List Seg),
    (s.thr t).st = .ready → s.tileRuns (tileOf t) = true → (s.thr t).outs = [] → (s.thr t).parity = [] →
    s.check t (fetchReq (s.thr t).pcc) = (s₁, .ok segs) → s₁.missesFetch t segs = none →
    ∀ (rd rs1 rs2 : Reg) (scale : BitVec 6) (round : BitVec 3) (te : Bool), ((35 < scale.toNat ∧ scale ≠ 63) ∨ (scale = 63 ∧ round ≠ 0) ∨ (scale ≠ 63 ∧ round = 7)) →
      ∀ i ∈ ([.madd t rd rs1 rs2 scale round te, .msub t rd rs1 rs2 scale round te] : List Instr), exec i s = .next ((s₁.countIssue t).raise t { cause := 0x01 }))

/-- The rounding modes. round(q, m) of an exact quotient differs from it by less than 1; the three nearest modes by at most one half, a tie going to
even, away from zero or towards zero; mode 3 never exceeds its magnitude, mode 4 is never below it, mode 5 never lies below the quotient and mode 6
never above it. Rests on R126, R130. -/
def Obligations.MoneyRounding : Prop :=
  ∀ (num : Int) (den mode : Nat), 0 < den → mode ≤ 6 →
    let r := moneyRound num den mode
    ((r * den - num).natAbs < den) ∧ (mode ≤ 2 → 2 * (r * den - num).natAbs ≤ den) ∧
    (mode = 0 → 2 * (r * den - num).natAbs = den → r % 2 = 0) ∧ (mode = 1 → 2 * (r * den - num).natAbs = den → num.natAbs < (r * den).natAbs) ∧
    (mode = 2 → 2 * (r * den - num).natAbs = den → (r * den).natAbs < num.natAbs) ∧
    (mode = 3 → (r * den).natAbs ≤ num.natAbs) ∧ (mode = 4 → num.natAbs ≤ (r * den).natAbs) ∧ (mode = 5 → num ≤ r * den) ∧ (mode = 6 → r * den ≤ num)

/-- MMUL, MDIV and MRESC. MMUL and MDIV leave the rounded product or quotient of two well-formed amounts outstanding, MDIV keeping the money divider
busy; the completion for a READY thread writes the word and sets its flags. A zero divisor gives VOID and MDZ, or, where the instruction asks for
the trap and MCTL enables it, a trap left outstanding. The completion of a trap raises its cause with PCC back at the instruction; for a STOPPED
thread it leaves that exception for its resume. MRESC writes its rescaled amount at once. Rests on R72, R130, R134, R144. -/
def Obligations.MoneyProducts : Prop :=
  ∀ (t : Tid) (rd rs1 rs2 : Reg) (scale : BitVec 6) (round : BitVec 3) (te : Bool) (s s₁ : State) (a b : Int) (k m : Nat),
    let th := s₁.thr t
    let left (i : Instr) (o : OutKind) (busy : Bool) : Prop := ∃ u, exec i s = .next u ∧ OnlyCore s₁ u t ∧
      (busy = true → (u.tile (tileOf t)).mdivBusy = true) ∧ (busy = false → u.tiles = s₁.tiles) ∧
      u.thr t = Thread.advance { th with outs := (th.dropOlder s₁.fresh [rd]).outs ++ [{ stamp := s₁.fresh, rd := rd, te := te, kind := o }] } 4
    let exactly (num : Int) (den : Nat) (q : Quad) (f : Word) : Prop :=
      let r := moneyRound num den m
      r.natAbs < 10 ^ 36 ∧ q = moneyEncode r ∧ f = (if r * den = num then 0 else 0x80000)
    moneyScale scale round th.mctl = some (k, m) → moneyOperand (th.reg rs1).bits = .value a → moneyOperand (th.reg rs2).bits = .value b →
    (∀ q f, Issues s t (moneyPre rd rs1 rs2 scale round false) s₁ → exactly (a * b) (10 ^ k) q f → left (.mmul t rd rs1 rs2 scale round te) (.moneyMul q f) false) ∧
    (∀ q f, Issues s t (moneyPre rd rs1 rs2 scale round true) s₁ → b ≠ 0 → exactly ((if b < 0 then -a else a) * 10 ^ k) b.natAbs q f →
      left (.mdiv t rd rs1 rs2 scale round te) (.moneyDiv q f) true) ∧
    (Issues s t (moneyPre rd rs1 rs2 scale round true) s₁ → b = 0 → te = true → th.mctl.getLsbD 13 = true →
      left (.mdiv t rd rs1 rs2 scale round te) (.moneyTrap true 0x0E) true) ∧
    (Issues s t (moneyPre rd rs1 rs2 scale round true) s₁ → b = 0 → (te = false ∨ th.mctl.getLsbD 13 = false) → left (.mdiv t rd rs1 rs2 scale round te) (.moneyDiv (1 <<< 127) 0x20000) true) ∧
    (∀ q f, Issues s t (moneyPre rd rs1 rs2 scale round false) s₁ → (th.reg rs2).bits.toNat % 64 ≤ 35 →
      exactly (a * 10 ^ k) (10 ^ ((th.reg rs2).bits.toNat % 64)) q f →
      ∃ u, exec (.mresc t rd rs1 rs2 scale round te) s = .next u ∧
        MakesThread s₁ u t (Thread.advance { ((th.dropOlder s₁.fresh [rd]).setReg rd (Cap.ofQuad q)) with mctl := th.mctl ||| f } 4)) ∧
    (∀ (n : Nat) (o : Out) (divider : Bool) (cause : Nat), (s.thr t).outs[n]? = some o → o.kind = .moneyTrap divider cause →
      ((s.thr t).st = .stopped → ∃ u, exec (.longOperationComplete t n) s = .next u ∧ SameMemory s u ∧ (u.thr t).st = .stopped ∧
        (u.thr t).entry = some { cause := BitVec.ofNat 64 cause, fa := 0, prio := none } ∧ (u.thr t).outs = (s.thr t).outs.eraseIdx n ∧
        (u.thr t).pcc = (s.thr t).pcc.moveCursor ((s.thr t).pcc.ea (-4)) ∧ (u.thr t).regs = (s.thr t).regs) ∧
      ((s.thr t).st ≠ .stopped → ∃ w : State, exec (.longOperationComplete t n) s = .next (w.raise t { cause := cause }) ∧ SameMemory s w ∧ (w.thr t).st = .ready ∧
        (w.thr t).pcc = (s.thr t).pcc.moveCursor ((s.thr t).pcc.ea (-4)) ∧ (w.thr t).regs = (s.thr t).regs ∧
        (w.thr t).outs = (s.thr t).outs.eraseIdx n)) ∧
    (∀ (n : Nat) (o : Out) (q : Quad) (f : Word), (s.thr t).outs[n]? = some o → o.kind = .moneyDiv q f ∨ o.kind = .moneyMul q f → (s.thr t).st = .ready →
      ∃ u, exec (.longOperationComplete t n) s = .next u ∧ WroteReg (s.thr t) (u.thr t) o.rd (Cap.ofQuad q) ∧ (u.thr t).mctl = (s.thr t).mctl ||| f ∧
        (u.thr t).outs = (s.thr t).outs.eraseIdx n ∧ (u.thr t).pcc = (s.thr t).pcc ∧ { u with threads := s.threads, tiles := s.tiles } = s ∧
        ∀ x, x ≠ t → { u.thr x with st := (s.thr x).st } = s.thr x)

/-- Money operations of one result, and VOID operands. On well-formed amounts MNEG and MABS write the negated or absolute amount, MCEQ, MCLT and MCLE
write 1 or 0, and MCVTM writes an amount below 2^63 in magnitude as an integer; on any operands MISV writes bit 127, MLGET writes and MLSET replaces
limb k, 0 to 9, the tenth being the top two bits, and MCVTI writes an integer as an amount. Each moves PCC on, sets no flag on these operands and
changes nothing else. A VOID operand makes the result of MADD, MSUB, MRESC, MNEG and MABS VOID, that of a comparison 0, and leaves VOID outstanding
for MMUL and MDIV, with no flag. A malformed rs1, with no VOID operand, gives the same results with MFORM set, or raises MONEY_FORM (MMUL and MDIV
at completion) when the instruction asks for the trap and MCTL enables it. Rests on R130, R139, R140, R141, R125, R131, R134. -/
def Obligations.MoneyUnaryAndVoid : Prop :=
  (∀ (t : Tid) (rd rs1 rs2 : Reg) (te : Bool) (lk : BitVec 4) (s s₁ : State) (a b : Int),
      let th := s₁.thr t
      let x := (th.reg rs1).bits
      let wrote (i : Instr) (q : Quad) : Prop := ∃ u, exec i s = .next u ∧ WritesReg s₁ u t rd (Cap.ofQuad q)
      (Issues s t { srcs := [rs1], dests := [rd] } s₁ →
        (moneyOperand x = .value a → wrote (.mneg t rd rs1 te) (moneyEncode (-a)) ∧ wrote (.mabs t rd rs1 te) (moneyEncode a.natAbs) ∧
          (a.natAbs < 2 ^ 63 → wrote (.mcvtm t rd rs1 te) ((BitVec.ofInt 64 a).setWidth 128))) ∧
        wrote (.misv t rd rs1) (if x.getLsbD 127 then 1 else 0) ∧ wrote (.mcvti t rd rs1) (moneyEncode (th.reg rs1).low.toInt)) ∧
      (Issues s t { srcs := [rs1, rs2], dests := [rd] } s₁ → moneyOperand x = .value a → moneyOperand (th.reg rs2).bits = .value b →
        wrote (.mceq t rd rs1 rs2 te) (if a = b then 1 else 0) ∧ wrote (.mclt t rd rs1 rs2 te) (if a < b then 1 else 0) ∧
        wrote (.mcle t rd rs1 rs2 te) (if a ≤ b then 1 else 0)) ∧
      (lk.toNat ≤ 9 → Issues s t { srcs := [rs1], dests := [rd] } s₁ →
        wrote (.mlget t rd rs1 lk) (BitVec.ofNat 128 (if lk = 9 then x.toNat / 2 ^ 126 else x.toNat / 2 ^ (14 * lk.toNat) % 2 ^ 14))) ∧
      (lk.toNat ≤ 9 → Issues s t { srcs := [rs1, rs2], dests := [rd] } s₁ → ∃ q, wrote (.mlset t rd rs1 rs2 lk) q ∧
        let w := if lk = 9 then 2 else 14
        ∀ n, q.getLsbD n = if 14 * lk.toNat ≤ n ∧ n < 14 * lk.toNat + w then (th.reg rs2).low.getLsbD (n - 14 * lk.toNat) else x.getLsbD n)) ∧
    (∀ (t : Tid) (rd rs1 rs2 : Reg) (scale : BitVec 6) (round : BitVec 3) (te : Bool) (s s₁ : State),
      let th := s₁.thr t
      let x := (th.reg rs1).bits
      let y := (th.reg rs2).bits
      let traps : Prop := te = true ∧ th.mctl.getLsbD 14 = true
      let void : Prop := x.getLsbD 127 = true ∨ y.getLsbD 127 = true
      let wrote (q : Quad) (f : Word) (i : Instr) : Prop :=
        ∃ u, exec i s = .next u ∧ MakesThread s₁ u t (Thread.advance { ((th.dropOlder s₁.fresh [rd]).setReg rd (Cap.ofQuad q)) with mctl := th.mctl ||| f } 4)
      let left (o : OutKind) (i : Instr) : Prop := ∃ u, exec i s = .next u ∧ OnlyCore s₁ u t ∧
        u.thr t = Thread.advance { th with outs := (th.dropOlder s₁.fresh [rd]).outs ++ [{ stamp := s₁.fresh, rd := rd, te := te, kind := o }] } 4
      let raises (i : Instr) : Prop := exec i s = .next (s₁.raise t { cause := 0x10 })
      let sums : List Instr := [.madd t rd rs1 rs2 scale round te, .msub t rd rs1 rs2 scale round te]
      let resc : Instr := .mresc t rd rs1 rs2 scale round te
      let signs : List Instr := [.mneg t rd rs1 te, .mabs t rd rs1 te]
      let tests : List Instr := [.mceq t rd rs1 rs2 te, .mclt t rd rs1 rs2 te, .mcle t rd rs1 rs2 te]
      (Issues s t (moneyPre rd rs1 rs2 scale round false) s₁ →
        (void → (∀ i ∈ sums, wrote (1 <<< 127) 0 i) ∧ left (.moneyMul (1 <<< 127) 0) (.mmul t rd rs1 rs2 scale round te)) ∧
        (x.getLsbD 127 = true → wrote (1 <<< 127) 0 resc) ∧
        (moneyOperand x = .malformed → y.getLsbD 127 = false →
          (traps → (∀ i ∈ sums, raises i) ∧ raises resc ∧ left (.moneyTrap false 0x10) (.mmul t rd rs1 rs2 scale round te)) ∧
          (¬ traps → (∀ i ∈ sums, wrote (1 <<< 127) 0x40000 i) ∧ wrote (1 <<< 127) 0x40000 resc ∧
            left (.moneyMul (1 <<< 127) 0x40000) (.mmul t rd rs1 rs2 scale round te)))) ∧
      (Issues s t (moneyPre rd rs1 rs2 scale round true) s₁ →
        (void → left (.moneyDiv (1 <<< 127) 0) (.mdiv t rd rs1 rs2 scale round te)) ∧
        (moneyOperand x = .malformed → y.getLsbD 127 = false →
          (traps → left (.moneyTrap true 0x10) (.mdiv t rd rs1 rs2 scale round te)) ∧
          (¬ traps → left (.moneyDiv (1 <<< 127) 0x40000) (.mdiv t rd rs1 rs2 scale round te)))) ∧
      (Issues s t { srcs := [rs1], dests := [rd] } s₁ → (x.getLsbD 127 = true → ∀ i ∈ signs, wrote (1 <<< 127) 0 i) ∧
        (moneyOperand x = .malformed → (traps → ∀ i ∈ signs, raises i) ∧ (¬ traps → ∀ i ∈ signs, wrote (1 <<< 127) 0x40000 i))) ∧
      (Issues s t { srcs := [rs1, rs2], dests := [rd] } s₁ → (void → ∀ i ∈ tests, wrote 0 0 i) ∧
        (moneyOperand x = .malformed → y.getLsbD 127 = false → (traps → ∀ i ∈ tests, raises i) ∧ (¬ traps → ∀ i ∈ tests, wrote 0 0x40000 i))))

/-- MA2L and ML2A. MA2L appends n ASCII digits of rs2 to the amount in rs1 and keeps its sign, when the result fits; ML2A writes n digits of the
magnitude from position rs2[5:0] up as ASCII, the highest in the lowest byte. A count of 0 means 16. Both move PCC on, set no flag on these operands
and change nothing else. Rests on R142, R143. -/
def Obligations.MoneyText : Prop :=
  ∀ (t : Tid) (rd rs1 rs2 : Reg) (n : BitVec 4) (te : Bool) (s s₁ : State) (a : Int), Issues s t { srcs := [rs1, rs2], dests := [rd] } s₁ →
    let th := s₁.thr t
    let y := (th.reg rs2).bits
    let k := if n = 0 then 16 else n.toNat
    let digit (i : Nat) : Nat := y.toNat / 256 ^ i % 256
    moneyOperand (th.reg rs1).bits = .value a →
    (∀ v : Nat, (∀ i, i < k → 0x30 ≤ digit i ∧ digit i ≤ 0x39) → v = (List.range k).foldl (fun x i => 10 * x + (digit i - 0x30)) 0 →
      a.natAbs * 10 ^ k + v < 10 ^ 36 →
      ∃ u, exec (.ma2l t rd rs1 rs2 n te) s = .next u ∧
        WritesReg s₁ u t rd (Cap.ofQuad (moneyEncode (if a < 0 then -((a.natAbs * 10 ^ k + v : Nat) : Int) else ((a.natAbs * 10 ^ k + v : Nat) : Int))))) ∧
    (∃ u q, exec (.ml2a t rd rs1 rs2 n te) s = .next u ∧ WritesReg s₁ u t rd (Cap.ofQuad q) ∧
      ∀ i, i < k → q.toNat / 256 ^ i % 256 = 0x30 + a.natAbs / 10 ^ (y.toNat % 64 + (k - 1 - i)) % 10)

/-- BCHK and a count of 0. BCHK passes a tagged, unsealed capability that holds the rights of its mask and covers rs2 bytes from its cursor, moving PCC
on, and otherwise raises BCHK with the first reason that applies; BMOV, BFILL, BSCAN and BCMP with a count of 0 only move PCC on, and raise
ILLEGAL_OP, whatever the count, when they name a register other than g0 twice, BMOV also with TAGS and DIR both 1. Rests on R145, R147, R162. -/
def Obligations.BlockChecks : Prop :=
  (∀ (t : Tid) (rd rs1 rs2 : Reg) (mask : BitVec 10) (s s₁ : State),
    let th := s₁.thr t
    let c := th.reg rs1
    let n := (th.reg rs2).low.toNat
    let on (i : Instr) : Prop := ∃ u, exec i s = .next u ∧ MakesThread s₁ u t (th.advance 4)
    (Issues s t { srcs := [rs1, rs2] } s₁ →
      (c.tag = true → c.seal = 0 → mask &&& ~~~(c.rights.setWidth 10) = 0 → c.base ≤ c.cursor → c.cursor + n ≤ c.top → on (.bchk t rs1 rs2 mask)) ∧
      (c.tag = false → exec (.bchk t rs1 rs2 mask) s = .next (s₁.raise t { cause := 0x11, detail := 1, fa := c.cursor })) ∧
      (c.tag = true → c.seal ≠ 0 → exec (.bchk t rs1 rs2 mask) s = .next (s₁.raise t { cause := 0x11, detail := 2, fa := c.cursor })) ∧
      (c.tag = true → c.seal = 0 → mask &&& ~~~(c.rights.setWidth 10) ≠ 0 →
        exec (.bchk t rs1 rs2 mask) s = .next (s₁.raise t { cause := 0x11, detail := 3, fa := c.cursor })) ∧
      (c.tag = true → c.seal = 0 → mask &&& ~~~(c.rights.setWidth 10) = 0 → (c.cursor < c.base ∨ c.top < c.cursor + n) →
        exec (.bchk t rs1 rs2 mask) s = .next (s₁.raise t { cause := 0x11, detail := 4, fa := c.cursor }))) ∧
    (n = 0 → sameRegs rd rs1 rs2 = false →
      (∀ tags dir, (tags && dir) = false → Issues s t { srcs := [rd, rs1, rs2], dests := [rd, rs1, rs2] } s₁ → on (.bmov t rd rs1 rs2 tags dir)) ∧
      (Issues s t { srcs := [rd, rs1, rs2], dests := [rd, rs2] } s₁ → on (.bfill t rd rs1 rs2) ∧ on (.bscan t rd rs1 rs2)) ∧
      (Issues s t { srcs := [rd, rs1, rs2], dests := [rd, rs1, rs2] } s₁ → on (.bcmp t rd rs1 rs2)))) ∧
    (∀ (s s₁ : State) (t : Tid) (segs : List Seg),
    (s.thr t).st = .ready → s.tileRuns (tileOf t) = true → (s.thr t).outs = [] → (s.thr t).parity = [] →
    s.check t (fetchReq (s.thr t).pcc) = (s₁, .ok segs) → s₁.missesFetch t segs = none →
    ∀ (rd rs1 rs2 : Reg) (tags dir : Bool),
      let twice : Prop := (rd ≠ 0 ∧ (rd = rs1 ∨ rd = rs2)) ∨ (rs1 ≠ 0 ∧ rs1 = rs2)
      let illegal (i : Instr) : Prop := exec i s = .next ((s₁.countIssue t).raise t { cause := 0x01 })
      (twice → ∀ i ∈ ([.bmov t rd rs1 rs2 tags dir, .bfill t rd rs1 rs2, .bscan t rd rs1 rs2, .bcmp t rd rs1 rs2] : List Instr), illegal i) ∧
      (tags = true → dir = true → illegal (.bmov t rd rs1 rs2 tags dir)))

/-- One iteration of a block instruction. An iteration of BFILL, BSCAN, BCMP or BMOV at DRAM outside a plate, with nothing outstanding, takes the bytes
up to the next granule boundary of rd, BMOV with DIR those down to it and with TAGS one granule: BFILL and BMOV leave a store of them pending, BSCAN
and BCMP stop at the first hit or difference; the cursors move by the bytes taken and the count goes down by them, PCC moves on only with the last
byte or a hit. Memory and the other registers are unchanged, and so is the rest of the unit where no other thread has a LIVE or COMMITTING plate.
Rests on R148, R149, R150, R152, R153, R154, R155, R156, R157. -/
def Obligations.BlockIterations : Prop :=
  ∀ (t : Tid) (rd rs1 rs2 : Reg) (s s₁ s₂ : State) (x : Seg),
    let th := s₁.thr t
    let d := th.reg rd
    let a := th.reg rs1
    let c := (th.reg rs2).low.toNat
    let n := min c (16 - d.cursor % 16)
    let b : Byte := (th.reg rs1).low.setWidth 8
    let bytes := leBytes n (s₂.viewSegs t s₂.fresh [(x.pa, x.len)])
    let after (v u : State) (step : Int) (k : Nat) (last : Prop) : Prop := SameMemory v u ∧ (v.alone t → OnlyAccess v u t) ∧
      (u.thr t).reg rd = d.setCursor (d.ea step) ∧ (u.thr t).reg rs2 = Cap.ofWord (BitVec.ofNat 64 (c - k)) ∧
      (∀ r, r ≠ rd → r ≠ rs1 → r ≠ rs2 → (u.thr t).reg r = th.reg r) ∧ (last → MovedOn (v.thr t) (u.thr t)) ∧ (¬ last → (u.thr t).pcc = (v.thr t).pcc)
    let kept (u : State) : Prop := (u.thr t).reg rs1 = a
    let moved (u : State) (step : Int) : Prop := (u.thr t).reg rs1 = a.setCursor (a.ea step)
    c ≠ 0 → sameRegs rd rs1 rs2 = false → s₂.noStop t → (s₂.thr t).st = .ready → allCached s₂ [x] = true → (s₂.plate t).pdepth = 0 → (s₂.thr t).outs = [] →
    (∀ r, (s₂.thr t).reg r = th.reg r) →
    (Issues s t { srcs := [rd, rs1, rs2], dests := [rd, rs2] } s₁ → s₁.check t (storeReq d rd d.cursor n 1 []) = (s₂, .ok [x]) → x.va = d.cursor → x.len = n →
      ∃ u, exec (.bfill t rd rs1 rs2) s = .next u ∧ after s₂ u n n (c = n) ∧ kept u ∧
        (u.thr t).stores = (s₂.thr t).stores ++ [{ stamp := s₂.fresh, writes := [.bytes x.pa (List.replicate n b)], device := false }]) ∧
    (Issues s t { srcs := [rd, rs1, rs2], dests := [rd, rs2] } s₁ → s₁.check t (loadReq d rd d.cursor n 1) = (s₂, .ok [x]) →
      (∀ j, firstByte (· == b) bytes = some j → ∃ u, exec (.bscan t rd rs1 rs2) s = .next u ∧ after s₂ u j j True ∧ kept u ∧ (u.thr t).stores = (s₂.thr t).stores) ∧
      (firstByte (· == b) bytes = none →
        ∃ u, exec (.bscan t rd rs1 rs2) s = .next u ∧ after s₂ u n n (c = n) ∧ kept u ∧ (u.thr t).stores = (s₂.thr t).stores)) ∧
    (∀ (s₃ s₄ : State) (y : Seg) (v : Nat), Issues s t { srcs := [rd, rs1, rs2], dests := [rd, rs1, rs2] } s₁ →
      s₂.loadDram t s₂.fresh [(x.pa, x.len)] = .ok s₃ v → allCached s₄ [y] = true → s₄.thr t = s₂.thr t →
      (s₁.check t (loadReq d rd d.cursor n 1) = (s₂, .ok [x]) → s₃.check t (loadReq a rs1 a.cursor n 1) = (s₄, .ok [y]) →
        let w := s₄.viewSegs t s₄.fresh [(y.pa, y.len)]
        (firstDifference (leBytes n v) (leBytes n w) = none → ∃ u, exec (.bcmp t rd rs1 rs2) s = .next u ∧ after s₄ u n n (c = n) ∧ moved u n) ∧
        (∀ j, firstDifference (leBytes n v) (leBytes n w) = some j → ∃ u, exec (.bcmp t rd rs1 rs2) s = .next u ∧ after s₄ u j j True ∧ moved u j)) ∧
      (∀ tags dir : Bool, (tags && dir) = false → (tags = true → d.cursor % 16 = 0 ∧ a.cursor % 16 = 0 ∧ c % 16 = 0) →
        let k : Nat := if tags then 16 else if dir then min c (if d.cursor % 16 = 0 then 16 else d.cursor % 16) else n
        let back : Int := if dir then -(k : Int) else 0
        let step : Int := if dir then -(k : Int) else k
        let cap : Cap := ⟨BitVec.ofNat 128 v, tags && loadTag s₂ t s₂.fresh [(x.pa, x.len)] && a.has .ldc⟩
        s₁.check t (loadReq a rs1 (a.ea back) k (if tags then 16 else 1)) = (s₂, .ok [x]) →
        s₃.check t (storeReq d rd (d.ea back) k (if tags then 16 else 1) (if tags then capStoreRights cap else [])) = (s₄, .ok [y]) → y.va = d.ea back → y.len = k →
        ∃ u, exec (.bmov t rd rs1 rs2 tags dir) s = .next u ∧ after s₄ u step k (c = k) ∧ moved u step ∧
          (u.thr t).stores = (s₂.thr t).stores ++
            [{ stamp := s₄.fresh, writes := [if tags then .cap (y.pa / 16) cap else .bytes y.pa (leBytes k v)], device := false }]))

/-- PBEGIN and PBEGIN.DEFER. An outermost PBEGIN with every earlier load, atomic and store done opens a LIVE plate of depth 1 with empty sets, writes 0
to rd and moves PCC on, and otherwise waits; Bellows refusing its class sends it to the abort target with cause ENERGY and RETRY, no plate open. An
inner one adds 1 to the depth, up to 7; at depth 7 the plate aborts with NESTING. Rests on R176, R185, R186, R187, R209, R214. -/
def Obligations.PlateBegins : Prop :=
  ∀ (t : Tid) (rd : Reg) (off : BitVec 14) (defer : Bool) (s s₁ : State), Issues s t { dests := [rd] } s₁ →
    let i : Instr := if defer then .pbeginDefer t rd off else .pbegin t rd off
    let th := s₁.thr t
    let target := th.pcc.moveCursor (th.pcc.ea (4 * off.toInt))
    (th.plate.pdepth = 0 → th.loadsOut = false → th.stores = [] → s₁.refusesGroup th.tgrp = false →
      ∃ u, exec i s = .next u ∧ OnlyThread s₁ u t ∧ WroteReg th (u.thr t) rd (Cap.ofWord 0) ∧ MovedOn th (u.thr t) ∧ (u.thr t).rstack = th.rstack ∧
        let p := u.plate t
        p.phase = .live ∧ p.pdepth = 1 ∧ p.target = target ∧ p.rd = rd ∧ p.defer = defer ∧ p.reads = [] ∧ p.writes = [] ∧ p.consumed = [] ∧ p.sends = [] ∧
        p.group = th.tgrp ∧ p.rsDepth = th.rstack.length) ∧
    (th.plate.pdepth = 0 → th.loadsOut = false → th.stores = [] → s₁.refusesGroup th.tgrp = true →
      ∃ u, exec i s = .next u ∧ OnlyThread s₁ u t ∧ (u.thr t).pcc = target ∧ (u.plate t).pdepth = 0 ∧ (u.plate t).cause = 9 ∧ (u.plate t).retry = true ∧
        WroteReg th (u.thr t) rd (Cap.ofWord ((u.plate t).status 0))) ∧
    (th.plate.pdepth = 0 → (th.loadsOut = true ∨ th.stores ≠ []) → ∃ u, exec i s = .next u ∧ MakesThread s₁ u t { th with st := .waiting (.pbegin rd off defer) }) ∧
    (0 < th.plate.pdepth → th.plate.pdepth < 7 → ∃ u, exec i s = .next u ∧ MakesThread s₁ u t
      (Thread.advance { ((th.dropOlder s₁.fresh [rd]).wrInt rd 0) with plate := { th.plate with pdepth := th.plate.pdepth + 1 } } 4)) ∧
    (th.plate.pdepth = 7 → exec i s = .next ((pumpAll (s₁.abortPlate t { cause := 5 }) th.plate.sends).boundary t) ∧
      (th.plate.abortable = true → (s₁.abortPlate t { cause := 5 }).plate t = th.plate.aborted { cause := 5 } th.pcc.cursor))

/-- PCOMMIT, PABORT and PSTAT. An inner PCOMMIT takes 1 from the depth and writes 0; an outermost one enters COMMITTING and its thread waits, but for a
plate that takes no CSN and has no load outstanding while commits are not stopped, which ends at once with the highest CSN assigned in rd; PCOMMIT
and PABORT outside a plate raise PLATE_ILLEGAL; PABORT aborts with cause 1 and its code, and then the ports that its plate has sent on go on; PSTAT
writes the word that its selector names. Rests on R187, R189, R191, R192, R213. -/
def Obligations.PlateEnds : Prop :=
  ∀ (t : Tid) (rd : Reg) (code : BitVec 8) (s s₁ : State),
    let th := s₁.thr t
    (Issues s t { dests := [rd] } s₁ →
      (1 < th.plate.pdepth → ∃ u, exec (.pcommit t rd) s = .next u ∧ MakesThread s₁ u t
        (Thread.advance { ((th.dropOlder s₁.fresh [rd]).wrInt rd 0) with plate := { th.plate with pdepth := th.plate.pdepth - 1 } } 4)) ∧
      (th.plate.pdepth = 1 → (th.plate.takesCsn = true ∨ th.loadsOut = true ∨ s₁.emptyCommits = false) → ∃ u, exec (.pcommit t rd) s = .next u ∧ MakesThread s₁ u t
        { th with plate := { th.plate with phase := .committing, commitRd := rd }, st := .waiting .pcommit }) ∧
      (th.plate.pdepth = 1 → th.plate.takesCsn = false → th.loadsOut = false → s₁.emptyCommits = true → ∃ u, exec (.pcommit t rd) s = .next u ∧ SameMemory s₁ u ∧ MovedOn th (u.thr t) ∧
        (u.plate t).phase = .none ∧ (u.plate t).pdepth = 0 ∧ WroteReg th (u.thr t) rd (Cap.ofWord (BitVec.ofNat 64 (s₁.nextCsn - 1)))) ∧
      (th.plate.pdepth = 0 → exec (.pcommit t rd) s = .next (s₁.raise t { cause := 0x1A })) ∧
      (∃ u, exec (.pstat t rd 0) s = .next u ∧ WritesReg s₁ u t rd (Cap.ofWord (th.plate.status th.plate.pdepth))) ∧
      (∃ u, exec (.pstat t rd 1) s = .next u ∧ WritesReg s₁ u t rd (Cap.ofWord (th.plate.abortPc.setWidth 64))) ∧
      (∃ u, exec (.pstat t rd 2) s = .next u ∧ WritesReg s₁ u t rd (Cap.ofWord (BitVec.ofNat 64 th.plate.lastCsn))) ∧
      (∃ u, exec (.pstat t rd 3) s = .next u ∧ WritesReg s₁ u t rd (Cap.ofWord (s₁.rget .durableCsn)))) ∧
    (Issues s t {} s₁ → th.plate.pdepth = 0 → exec (.pabort t code) s = .next (s₁.raise t { cause := 0x1A })) ∧
    (Issues s t {} s₁ → 0 < th.plate.pdepth → th.plate.phase = .live → th.st = .ready →
      exec (.pabort t code) s = .next ((pumpAll (s₁.abortPlate t { cause := 1, code := code.toNat }) th.plate.sends).boundary t)) ∧
    (Issues s t {} s₁ → 0 < th.plate.pdepth → th.plate.phase = .live → th.st = .ready → th.plate.sends = [] →
      ∃ u, exec (.pabort t code) s = .next u ∧ SameMemory s₁ u ∧ (u.thr t).pcc = th.plate.target ∧ (u.plate t).phase = .none ∧
        (u.plate t).pdepth = 0 ∧ (u.plate t).writes = [] ∧ (u.plate t).cause = 1 ∧ (u.plate t).code = code ∧ (u.plate t).adepth = th.plate.pdepth)

/-- What an abort does. An abort of a LIVE or COMMITTING plate is one event: memory and every port's receive queue stay as they were, the thread goes to
the abort target with the status word in the plate's rd, its return stack back at the depth of PBEGIN, nothing outstanding; other threads keep their
registers. A thread with no such plate is left alone. Rests on R189, R204, R205, R206, R214. -/
def Obligations.PlateAborts : Prop :=
  ∀ (t : Tid) (a : AbortInfo) (s : State),
    ((s.plate t).abortable = false → s.abortPlate t a = s) ∧
    ((s.plate t).abortable = true →
      let u := s.abortPlate t a
      SameMemory s u ∧ (u.thr t).pcc = (s.plate t).target ∧ (u.plate t).phase = .none ∧ (u.plate t).pdepth = 0 ∧ (u.plate t).reads = [] ∧ (u.plate t).writes = [] ∧
      (u.plate t).consumed = [] ∧ (u.plate t).cause = a.cause ∧ (u.plate t).retry = a.retry ∧ (u.plate t).adepth = (s.plate t).pdepth ∧ (u.thr t).outs = [] ∧
      (u.thr t).reg (s.plate t).rd = (if (s.plate t).rd = 0 then Cap.null else Cap.ofWord ((u.plate t).status 0)) ∧
      (u.thr t).rstack = (s.thr t).rstack.drop ((s.thr t).rstack.length - (s.plate t).rsDepth) ∧ (u.thr t).world = (s.thr t).world ∧
      (∀ n, (u.port n).rxq = (s.port n).rxq) ∧ ∀ x, x ≠ t → ∀ r, (u.thr x).reg r = (s.thr x).reg r)

/-- Commit requests and limits. COMMIT_REQUEST of a COMMITTING plate whose loads are done adds it once to the sequencer's queue. COMMIT_POINT of the
request that goes next assigns the next CSN: a journalled plate is HELD with its record in the journal, a volatile one has published and its PCOMMIT
writes the CSN; any other leaves the state alone. A request that waits for journal space, or a deferred plate with a vector due, aborts when its
limit expires. Rests on R187, R192, R198, R202, R207, R208. -/
def Obligations.CommitSequencing : Prop :=
  ∀ (t : Tid) (s : State),
    let p := s.plate t
    let w := s.commitPoint t
    (s.mayRequest t = true → ∃ u, exec (.commitRequest t) s = .next u ∧ u = { s with etch := u.etch } ∧
      u.etch = { s.etch with queue := s.etch.queue ++ [{ who := .thread t, journalled := s.isJournalled p }] } ∧ u.mayRequest t = false) ∧
    (s.mayRequest t = false → exec (.commitRequest t) s = .next s) ∧
    (s.sequencerRuns = true → nextRequest s false s.etch.queue = some (.thread t) → (∀ r ∈ s.etch.recs, r.tid ≠ some t) →
      exec (.commitPoint t) s = .next w.after ∧ w.rget .nextCsn = BitVec.ofNat 64 (s.nextCsn + 1) ∧
      (s.isJournalled p = true → (w.plate t).phase = .held ∧ (w.plate t).csn = s.nextCsn ∧ (w.plate t).writes = p.writes ∧
        w.rget .jpos = BitVec.ofNat 64 (s.jposition + p.recordLen)) ∧
      (s.isJournalled p = false → (w.plate t).phase = .none ∧ (w.plate t).lastCsn = s.nextCsn ∧ w.jposition = s.jposition ∧
        WroteReg (s.thr t) (w.thr t) p.commitRd (Cap.ofWord (BitVec.ofNat 64 s.nextCsn)) ∧
        (s.etch.recs = [] → Map.sorted p.writes = true → ∀ g x, Map.find p.writes g = some x → w.granuleAt g = x))) ∧
    (s.sequencerRuns = false ∨ nextRequest s false s.etch.queue ≠ some (.thread t) → exec (.commitPoint t) s = .next s) ∧
    (s.waitsForSpace t = true → s.pfail = false → p.abortable = true →
      ∃ u, exec (.journalWaitExpiry t) s = .next u ∧ SameMemory s u ∧ (u.plate t).cause = 8 ∧ (u.plate t).retry = true ∧ (u.plate t).phase = .none ∧
        (u.thr t).pcc = p.target) ∧
    (s.waitsForSpace t = false ∨ s.pfail = true → exec (.journalWaitExpiry t) s = .next s) ∧
    (p.abortable = true → p.defer = true → s.dueVectors t ≠ [] →
      ∃ u, exec (.deferLimitExpiry t) s = .next u ∧ SameMemory s u ∧ (u.plate t).cause = 6 ∧ (u.plate t).phase = .none ∧ (u.thr t).pcc = p.target) ∧
    (p.abortable = false ∨ p.defer = false ∨ s.dueVectors t = [] → exec (.deferLimitExpiry t) s = .next s)

/-- Taking an exception or an interrupt. An exception of a thread with results outstanding waits, its cause and fault address held; with none it enters
at once. Entry with a stack that takes the frame, and no parity error: the status granule, PCC, cause and fault address, PKEYS, g31, g1, g2 and g3
stand in the eight granules, colours kept, g1 is the frame's capability, g2 the cause, g3 the fault address, g31 the frame's address on the stack
taken (from user level on it STK); level is supervisor, PKEYS 0, PCC EVEC, an interrupt sets IPL; the other registers, the return stack, the world
and all other memory stay. With no stack the thread is lost: EMPTY and null. Rests on R74, R276, R277, R280, R281. -/
def Obligations.ExceptionEntry : Prop :=
  ∀ (t : Tid) (s s₁ : State) (e : PEntry) (segs : List Seg) (c : Cap) (spill : Bool) (a : Nat) (x : Exc),
    let th := s.thr t
    let word (sp : Bool) : Word := if sp then e.cause ||| (1 : Word) <<< 17 else e.cause
    let frame (sp : Bool) : List Cap := [statusGranule th.world th.level th.ipl, th.pcc,
      Cap.ofQuad ((((e.fa.setWidth 54).setWidth 128) <<< 64) ||| (word sp).setWidth 128), Cap.ofQuad th.pkeys, th.reg 31, th.reg 1, th.reg 2, th.reg 3]
    let f := c.ea (-128)
    let sup : Bool := decide ((s₁.thr t).level = .supervisor) || spill
    let u := s.enter t e
    ((s.plate t).abortable = false → th.outs = [] →
      s.raise t x = s.enter t { cause := BitVec.ofNat 64 (x.detail * 256 + x.cause), fa := BitVec.ofNat 64 x.fa, prio := none }) ∧
    ((s.plate t).abortable = false → th.outs ≠ [] → 
      let held : PEntry := { cause := BitVec.ofNat 64 (x.detail * 256 + x.cause), fa := BitVec.ofNat 64 x.fa, prio := none }
      MakesThread s (s.raise t x) t { th with st := .waiting .entry, entry := some held }) ∧
    (th.parity = [] → (s₁.thr t).parity = [] → choosePush s t frame = (s₁, .at segs c spill) → s₁.noStop t → (s₁.thr t).stores = [] →
      jumpCheck ((s₁.thr t).evec (s₁.thr t).world) 0 = none → a % 16 = 0 → segs.map (·.pa) = (List.range 8).map (fun i => a + 16 * i) →
      (∀ y ∈ segs, s₁.isDram y.pa = true) →
      (u.thr t).st = .ready ∧ (u.thr t).level = .supervisor ∧ (u.thr t).world = (s₁.thr t).world ∧ (u.thr t).pkeys = 0 ∧
      (u.thr t).ipl = e.prio.getD (s₁.thr t).ipl ∧ (u.thr t).pcc = (s₁.thr t).evec (s₁.thr t).world ∧ (u.thr t).rstack = (s₁.thr t).rstack ∧
      (u.thr t).reg 31 = (if sup then c.setCursor f else (s₁.thr t).stk (s₁.thr t).world) ∧ (u.thr t).reg 1 = (c.narrowTo f 128).setRights 0x5B ∧
      (u.thr t).reg 2 = Cap.ofWord (word spill) ∧ (u.thr t).reg 3 = Cap.ofWord e.fa ∧
      (∀ r : Reg, r ≠ 31 → r ≠ 1 → r ≠ 2 → r ≠ 3 → (u.thr t).reg r = (s₁.thr t).reg r) ∧
      (∀ i v, (frame spill)[i]? = some v → (u.granuleAt (a / 16 + i)).data = v.bits ∧ (u.granuleAt (a / 16 + i)).tag = v.tag ∧
        (u.granuleAt (a / 16 + i)).colour = (s₁.granuleAt (a / 16 + i)).colour) ∧
      (∀ g, g < a / 16 ∨ a / 16 + 8 ≤ g → u.granuleAt g = s₁.granuleAt g)) ∧
    (th.parity = [] → choosePush s t frame = (s₁, .none) → (u.thr t).st = .empty ∧ ∀ r, (u.thr t).reg r = Cap.null)

/-- Interrupt controllers and interrupt entry. The vector due next has the highest priority, then the lowest number. INTERRUPT_ENTRY of a thread at a
boundary clears its pending bit and enters with its number and priority; a wait that must be given up while results are outstanding becomes the wait
for them; otherwise nothing changes, and with no vector due the wait is only re-examined. VECTOR_RAISE sets one pending bit, SWSET one that the
master reaches, PEND clears those written 1 that it reaches, VCFG sets its fields, WORLD only from the Vault world. The arrival of a fetched line
fills the tile's cache and makes its thread READY, unless it evicts a line that the thread's plate marks: then the plate aborts. Rests on R67, R74,
R277, R280, R282, R287, R288, R289, R196. -/
def Obligations.InterruptCommands : Prop :=
  ∀ (t : Tid) (m : Master) (n v k line : Nat) (x : Word) (during : List (Nat × Nat)) (s : State),
    let entryOf (v : Nat) : PEntry := { cause := BitVec.ofNat 64 (v * 2 ^ 24 + 2 ^ 16), fa := 0, prio := some (vcfgPrio (s.rget (.vcfg (tileOf t) v))) }
    (s.dueVector t = some v → v ∈ s.dueVectors t ∧ ∀ y ∈ s.dueVectors t,
      let pv := vcfgPrio (s.rget (.vcfg (tileOf t) v))
      let py := vcfgPrio (s.rget (.vcfg (tileOf t) y))
      py < pv ∨ (py = pv ∧ v ≤ y)) ∧
    (s.dueVector t = none → exec (.interruptEntry t during) s = .next (s.settle t)) ∧
    (s.dueVector t = some v → s.mustAbandon t = false → s.mayEnter t = false → exec (.interruptEntry t during) s = .next s) ∧
    (s.dueVector t = some v → s.mustAbandon t = true → ∃ u, exec (.interruptEntry t during) s = .next u ∧ SameMemory s u ∧
      u.thr t = { (s.thr t) with st := .waiting .interrupt } ∧ ∀ y, y ≠ t → u.thr y = s.thr y) ∧
    (s.dueVector t = some v → s.mayEnter t = true → (s.plate t).abortable = false →
      ∃ w : State, exec (.interruptEntry t []) s = .next (w.enter t (entryOf v)).after ∧
        w.thr t = { (s.thr t) with st := .ready } ∧ SameMemory s w ∧ ∀ y, y ∈ (w.tile (tileOf t)).pend ↔ y ≠ v ∧ y ∈ (s.tile (tileOf t)).pend) ∧
    (s.powered = true → ∃ u, exec (.vectorRaise n v) s = .next u ∧ SameMemory s u ∧ u.threads = s.threads ∧ u.regs = s.regs ∧
      ∀ y, y ∈ (u.tile n).pend ↔ y = v ∨ y ∈ (s.tile n).pend) ∧
    (s.reachesReg m (.swset n) → s.reachesVector m n (x.toNat % 256) = true → ∃ w : State, exec (.swsetWrite m n x) s = .next w.after ∧ w.threads = s.threads ∧
      ∀ y, y ∈ (w.tile n).pend ↔ y = x.toNat % 256 ∨ y ∈ (s.tile n).pend) ∧
    (s.reachesReg m (.swset n) → s.reachesVector m n (x.toNat % 256) = false → exec (.swsetWrite m n x) s = .next s.after) ∧
    (s.reachesReg m (.pend n k) → ∃ w : State, exec (.pendWrite m n k x) s = .next w.after ∧ w.threads = s.threads ∧ w.regs = s.regs ∧
      ∀ y, y ∈ (w.tile n).pend ↔ y ∈ (s.tile n).pend ∧ ¬ (y / 64 = k ∧ x.getLsbD (y % 64) = true ∧ s.reachesVector m n y = true)) ∧
    (s.reachesReg m (.vcfg n v) → s.reachesVector m n v = true → ∃ w : State, exec (.vcfgWrite m n v x) s = .next w.after ∧
      bitsOf (w.rget (.vcfg n v)) 8 3 = bitsOf x 8 3 ∧ bitsOf (w.rget (.vcfg n v)) 4 4 = bitsOf x 4 4 ∧ bitsOf (w.rget (.vcfg n v)) 0 1 = bitsOf x 0 1 ∧
      bitsOf (w.rget (.vcfg n v)) 11 1 = (if s.vaultTile m then bitsOf x 11 1 else bitsOf (s.rget (.vcfg n v)) 11 1) ∧
      (∀ q : RName, q.addr ≠ (RName.vcfg n v).addr → w.rget q = s.rget q) ∧ w.threads = s.threads ∧ w.tiles = s.tiles) ∧
    (s.reachesReg m (.vcfg n v) → s.reachesVector m n v = false → exec (.vcfgWrite m n v x) s = .next s.after) ∧
    (∀ s₁, (s.thr t).st = .parked (.fetch line) →
      (touchLines s t [line] = (s₁, false) → ∃ u, exec (.instructionFetchArrival t) s = .next u ∧ SameMemory s u ∧ (u.thr t).st = .ready ∧
        (u.thr t).pcc = (s.thr t).pcc ∧ Map.find (u.tile (tileOf t)).l1i line = some (bytesAt s.mem (64 * line) 64)) ∧
      (touchLines s t [line] = (s₁, true) →
        exec (.instructionFetchArrival t) s = .next ((s₁.abortPlate t { cause := 4, retry := true }).boundary t))) ∧
    ((∀ l, (s.thr t).st ≠ .parked (.fetch l)) → exec (.instructionFetchArrival t) s = .next s)

/-- PRECV, PWAIT and port claims. PRECV outside a plate of a port that is bound here takes its oldest message: its capability goes to rd, the queue
shrinks and CONSUMED rises by one; with none left rd takes 1, 2 or 3 for no message, CLOSED, RESET. A FREE port, or one of the other world, answers
4, one in HANDSHAKE 6 in the Main world, one that has moved 5, and inside a plate aborts it. Inside a plate, where the read set and the plate buffer
have room, the message stays queued and the plate takes the next one. A held cursor line PARKS the thread, or aborts its plate. PWAIT ends the
claims of its thread, then returns and claims a ready port, else all ones at timeout 0, else waits; a timeout ends the wait; a claim that expires
ends and its port goes to a waiter. A failing port check raises; PWAIT raises PLATE_ILLEGAL inside a plate. Rests on R180, R192, R194, R210, R211,
R293, R313, R314, R315, R316, R317. -/
def Obligations.PortReceiving : Prop :=
  ∀ (t : Tid) (rd rs1 rs2 : Reg) (s s₁ : State),
    let th := s₁.thr t
    let c := th.reg rs1
    let n := c.cursor
    let p := s₁.port n
    let isPort : Prop := c.tag = true ∧ c.seal = 0 ∧ c.has .port = true ∧ c.base ≤ n ∧ n < c.top ∧ n < 4096
    let bound : Prop := p.state ≠ .free ∧ p.world = th.world
    let here : Prop := bound ∧ p.moved = none ∧ ¬ (p.state = .handshake ∧ th.world = .main)
    let unheld : Prop := s₁.heldByOther (some t) (cursorLine n) = false
    let parks (i : Instr) (w : State) : Prop := ∃ u, exec i s = .next u ∧
      MakesThread w u t { (w.thr t) with issued := (w.thr t).issued - 1, sinceTick := (w.thr t).sinceTick - 1, st := .parked (.heldLine false) }
    let r := s₁.usesPort t n true
    let answers (k : Word) : Prop := ∃ u, exec (.precv t rd rs1) s = .next u ∧ WritesReg r u t rd (Cap.ofWord k)
    let aborts (a : AbortInfo) : Prop := exec (.precv t rd rs1) s = .next ((pumpAll (r.abortPlate t a) (r.plate t).sends).boundary t)
    let none_ : Word := match p.notice with | .none => 1 | .closed => 2 | .reset => 3
    (Issues s t { srcs := [rs1], dests := [rd] } s₁ →
      (∀ e, portCheck c rs1 = some e → exec (.precv t rd rs1) s = .next (s₁.raise t e)) ∧
      (isPort → ¬ bound → answers 4) ∧
      (isPort → bound → p.moved ≠ none → (th.plate.pdepth = 0 → answers 5) ∧ (th.plate.pdepth ≠ 0 → aborts { cause := 10 })) ∧
      (isPort → bound → p.moved = none → p.state = .handshake → th.world = .main → answers 6) ∧
      (isPort → here → th.plate.pdepth = 0 → ¬ unheld → parks (.precv t rd rs1) r) ∧
      (isPort → here → th.plate.pdepth = 0 → unheld →
        (∀ d l, p.rxq = d :: l → ∃ u, exec (.precv t rd rs1) s = .next u ∧ SameMemory s₁ u ∧ WroteReg th (u.thr t) rd (p.messageCap d) ∧
          MovedOn th (u.thr t) ∧ (u.port n).rxq = l ∧ (u.port n).consumed = p.consumed + 1) ∧
        (p.rxq = [] → ∃ u, exec (.precv t rd rs1) s = .next u ∧ SameMemory s₁ u ∧ MovedOn th (u.thr t) ∧ (u.port n).rxq = [] ∧
          WroteReg th (u.thr t) rd (Cap.ofWord none_))) ∧
      (isPort → here → th.plate.pdepth ≠ 0 → ¬ unheld → aborts { cause := 2, retry := true }) ∧
      (∀ l, isPort → here → th.plate.pdepth ≠ 0 → unheld → addReads th.plate.reads [cursorLine n] = some l → r.bufferUsed (tileOf t) < 256 →
        let k := th.plate.takenOf n
        (∀ d, p.rxq[k]? = some d → ∃ u, exec (.precv t rd rs1) s = .next u ∧ SameMemory s₁ u ∧
          WroteReg th (u.thr t) rd (p.messageCap d) ∧ MovedOn th (u.thr t) ∧ u.ports = s₁.ports ∧ (u.plate t).takenOf n = k + 1 ∧
          (u.plate t).tookRecv = true ∧ (u.plate t).reads = l) ∧
        (p.rxq[k]? = none → ∃ u, exec (.precv t rd rs1) s = .next u ∧ SameMemory s₁ u ∧
          WroteReg th (u.thr t) rd (Cap.ofWord none_) ∧ MovedOn th (u.thr t) ∧ u.ports = s₁.ports ∧ (u.plate t).takenOf n = k ∧
          (u.plate t).tookRecv = true ∧ (u.plate t).reads = l))) ∧
    (Issues s t { srcs := [rs1, rs2], dests := [rd] } s₁ →
      (th.plate.pdepth ≠ 0 → exec (.pwait t rd rs1 rs2) s = .next (s₁.raise t { cause := 0x1A })) ∧
      (th.plate.pdepth = 0 → ∀ e, portCheck c rs1 = some e → exec (.pwait t rd rs1 rs2) s = .next (s₁.raise t e)) ∧
      (th.plate.pdepth = 0 → isPort →
        let hi := min c.top 4096
        let e := endClaims s₁ t
        (∀ k, findPort e t c.base hi = some k → ∃ u, exec (.pwait t rd rs1 rs2) s = .next u ∧ SameMemory s₁ u ∧
          WroteReg th (u.thr t) rd (Cap.ofWord (BitVec.ofNat 64 k)) ∧ MovedOn th (u.thr t) ∧ (u.port k).claim = some t) ∧
        (findPort e t c.base hi = none → (th.reg rs2).low = 0 → ∃ u, exec (.pwait t rd rs1 rs2) s = .next u ∧
          WritesReg e u t rd (Cap.ofWord (BitVec.allOnes 64))) ∧
        (findPort e t c.base hi = none → (th.reg rs2).low ≠ 0 → ∃ u, exec (.pwait t rd rs1 rs2) s = .next u ∧
          MakesThread e u t { th with st := .waiting (.pwait rd c.base hi s₁.fresh) }))) ∧
    (∀ lo hi stamp, (s.thr t).st = .waiting (.pwait rd lo hi stamp) → s.noStop t →
      (findPort s t lo hi = none → ∃ u, exec (.pwaitTimeout t) s = .next u ∧ (u.thr t).st = .ready ∧ SameMemory s u ∧
        WroteReg (s.thr t) (u.thr t) rd (Cap.ofWord (BitVec.allOnes 64)) ∧ MovedOn (s.thr t) (u.thr t)) ∧
      (∀ k, findPort s t lo hi = some k → ∃ u, exec (.pwaitTimeout t) s = .next u ∧ (u.thr t).st = .ready ∧ (u.port k).claim = some t ∧
        WroteReg (s.thr t) (u.thr t) rd (Cap.ofWord (BitVec.ofNat 64 k)) ∧ MovedOn (s.thr t) (u.thr t))) ∧
    ((∀ r lo hi stamp, (s.thr t).st ≠ .waiting (.pwait r lo hi stamp)) → exec (.pwaitTimeout t) s = .next s) ∧
    (∀ k, exec (.portClaimExpiry k) s = .next ((s.modPort k (fun p => { p with claim := none })).offerPort k)) ∧
    (∀ k, (s.port k).ready = false → ∃ u, exec (.portClaimExpiry k) s = .next u ∧ SameMemory s u ∧ u.threads = s.threads ∧ (u.port k).claim = none ∧
      ∀ j, j ≠ k → u.port j = s.port j)

/-- PSEND and PCTL. PSEND of a message that fits queues it and writes 0 to rd: inside a plate at the queue's end for the plate, outside before entries
of plates that have not committed, and the port engine sends what may leave. It answers 3 for a closed connection, 4 for a FREE port, 5 for one that
has moved (inside a plate it aborts), 6 for HANDSHAKE in the Main world, 7 for a full queue, 8 for a message too big. QUERY reads the status word.
CLOSE asks for the FIN, ABORT sends RST and closes with notice RESET, RELEASE frees a closed port or asks for it while TIME-WAIT or the forwarding
window lasts, SETCONF changes CONF at a boundary or keeps it for the next, KEYS installs its slots, LPOOL its pool; each answers 9 where it is not
possible now, and all but QUERY inside a plate, and the five answer 4 on a FREE port. A held cursor line PARKS ABORT and RELEASE. A failing check
raises. Rests on R180, R212, R297, R300, R314, R315, R318, R319, R321, R322, R350. -/
def Obligations.PortSending : Prop :=
  ∀ (t : Tid) (rd rs1 rs2 : Reg) (s s₁ : State),
    let th := s₁.thr t
    let c := th.reg rs1
    let n := c.cursor
    let p := s₁.port n
    let isPort : Prop := c.tag = true ∧ c.seal = 0 ∧ c.has .port = true ∧ c.base ≤ n ∧ n < c.top ∧ n < 4096
    let bound : Prop := p.state ≠ .free ∧ p.world = th.world
    let here : Prop := bound ∧ p.moved = none ∧ ¬ (p.state = .handshake ∧ th.world = .main)
    let unheld : Prop := s₁.heldByOther (some t) (cursorLine n) = false
    let parks (i : Instr) (w : State) : Prop := ∃ u, exec i s = .next u ∧
      MakesThread w u t { (w.thr t) with issued := (w.thr t).issued - 1, sinceTick := (w.thr t).sinceTick - 1, st := .parked (.heldLine false) }
    let m := th.reg rs2
    let v := m.low
    let r := s₁.usesPort t n false
    let answers (i : Instr) (w : State) (k : Word) : Prop := ∃ u, exec i s = .next u ∧ WritesReg w u t rd (Cap.ofWord k)
    let done (i : Instr) (u : State) : Prop := exec i s = .next u ∧ WroteReg th (u.thr t) rd (Cap.ofWord 0) ∧ MovedOn th (u.thr t)
    let engine (i : Instr) (w : State) : Prop := exec i s =
      .next (((w.modThr t (fun x => x.wrInt rd 0)).modThr t (fun x => (x.dropOlder s₁.fresh [rd]).advance 4)).boundary t)
    let five : List Instr := [.pctlClose t rd rs1 rs2, .pctlAbort t rd rs1 rs2, .pctlRelease t rd rs1 rs2, .pctlSetconf t rd rs1 rs2, .pctlKeys t rd rs1 rs2]
    let live : Prop := p.tls = true ∧ (p.state = .handshake ∨ p.state = .open ∨ p.state = .closing) ∧ p.moved = none
    let stamp := if confHold p.conf then s₁.nextCsn - 1 else 0
    let e : TxEntry :=
      { cap := m, len := m.top - m.cursor, stamp := stamp, plate := none, need := stamp, ofPlate := false, late := p.closeReq,
        released := false, sent := false, dead := false, taken := false, startSeq := 0, wire := [] }
    let open_ : Prop := p.state ≠ .closed ∧ ¬ (p.state = .closing ∧ p.closeReq = true)
    (Issues s t { srcs := [rs1, rs2], dests := [rd] } s₁ →
      (∀ x, portCheck c rs1 = some x → ∀ i ∈ (.psend t rd rs1 rs2 :: .pctlQuery t rd rs1 rs2 :: five : List Instr), exec i s = .next (s₁.raise t x)) ∧
      (∀ x, isPort → messageCheck m rs2 = some x → exec (.psend t rd rs1 rs2) s = .next (s₁.raise t x)) ∧
      (isPort → messageCheck m rs2 = none →
        (¬ bound → answers (.psend t rd rs1 rs2) r 4) ∧
        (bound → p.moved ≠ none → (th.plate.pdepth = 0 → answers (.psend t rd rs1 rs2) r 5) ∧
          (th.plate.pdepth ≠ 0 → exec (.psend t rd rs1 rs2) s = .next ((pumpAll (r.abortPlate t { cause := 10 }) (r.plate t).sends).boundary t))) ∧
        (bound → p.moved = none → p.state = .handshake → th.world = .main → answers (.psend t rd rs1 rs2) r 6) ∧
        (here → open_ → e.len ≤ p.sendLimit → p.txq.length < 4 → th.plate.pdepth = 0 → engine (.psend t rd rs1 rs2) ((s₁.addEntry n e).pumpPort n)) ∧
        (here → open_ → e.len ≤ p.sendLimit → p.txq.length < 4 → th.plate.pdepth ≠ 0 → ∃ u, done (.psend t rd rs1 rs2) u ∧ SameMemory s₁ u ∧
          (u.port n).txq = p.txq ++ [{ e with stamp := 0, need := 0, plate := some t, ofPlate := true }] ∧ n ∈ (u.plate t).sends) ∧
        (here → ¬ open_ → answers (.psend t rd rs1 rs2) r 3) ∧ (here → open_ → p.sendLimit < e.len → answers (.psend t rd rs1 rs2) r 8) ∧
        (here → open_ → e.len ≤ p.sendLimit → 4 ≤ p.txq.length → answers (.psend t rd rs1 rs2) r 7)) ∧
      (isPort → bound → answers (.pctlQuery t rd rs1 rs2) s₁ p.statusWord) ∧ (isPort → ¬ bound → answers (.pctlQuery t rd rs1 rs2) s₁ (4 * 2 ^ 24)) ∧
      (isPort → th.plate.pdepth ≠ 0 → ∀ i ∈ five, answers i s₁ 9) ∧
      (isPort → th.plate.pdepth = 0 → ¬ bound → ∀ i ∈ five, answers i s₁ 4) ∧
      (isPort → th.plate.pdepth = 0 → bound →
        (¬ (p.state = .open ∨ p.state = .closing) ∨ p.closeReq = true ∨ p.moved ≠ none → answers (.pctlClose t rd rs1 rs2) s₁ 9) ∧
        (p.state = .open ∨ p.state = .closing → p.closeReq = false → p.moved = none →
          engine (.pctlClose t rd rs1 rs2) ((s₁.modPort n (fun p => { p with closeReq := true })).pumpPort n)) ∧
        (p.state = .closed ∨ p.moved ≠ none → answers (.pctlAbort t rd rs1 rs2) s₁ 9) ∧
        (p.state ≠ .closed → p.moved = none → ¬ unheld → parks (.pctlAbort t rd rs1 rs2) s₁) ∧
        (p.state ≠ .closed → p.moved = none → unheld → ∃ u, done (.pctlAbort t rd rs1 rs2) u ∧ (u.port n).state = .closed ∧ (u.port n).notice = .reset ∧
          (u.port n).rxq = [] ∧ ∃ h g, g.rst = true ∧ Output.segment n h g ∈ u.out) ∧
        (p.state ≠ .closed → p.gone = false → answers (.pctlRelease t rd rs1 rs2) s₁ 9) ∧
        (p.state = .closed ∨ p.gone = true → ¬ unheld → parks (.pctlRelease t rd rs1 rs2) s₁) ∧
        (p.state = .closed ∨ p.gone = true → unheld → p.timeWait = false → p.fwdWindow = false →
          ∃ u, done (.pctlRelease t rd rs1 rs2) u ∧ (u.port n).state = .free) ∧
        (p.state = .closed ∨ p.gone = true → unheld → p.timeWait = true → ∃ u, done (.pctlRelease t rd rs1 rs2) u ∧ (u.port n).state = p.state ∧
          (u.port n).rxq = [] ∧ (u.port n).releaseReq = true) ∧
        (p.state = .closed ∨ p.gone = true → unheld → p.timeWait = false → p.fwdWindow = true → ∃ u, done (.pctlRelease t rd rs1 rs2) u ∧
          (u.port n).state = p.state ∧ (u.port n).rxq = p.rxq ∧ (u.port n).releaseReq = true) ∧
        (∃ u, done (.pctlSetconf t rd rs1 rs2) u ∧ SameMemory s₁ u ∧
          (p.atBoundary = true → (u.port n).conf = fieldWrite (p.confNext.getD p.conf) v confFields) ∧
          (p.atBoundary = false → (u.port n).conf = p.conf ∧ (u.port n).confNext = some (fieldWrite (p.confNext.getD p.conf) v confFields))) ∧
        (th.world = .main ∨ ¬ live → answers (.pctlKeys t rd rs1 rs2) s₁ 9) ∧
        (
          let st : PState := if p.state = .handshake ∧ v.getLsbD 31 = true then (if p.finRcvd then .closing else .open) else p.state
          let keyed := s₁.modPort n (fun p =>
            { p with rxSlot := some (bitsOf v 0 13), txSlot := some (bitsOf v 16 13), state := st, rxStopped := p.rxStopped && decide (p.state = .handshake) })
          th.world = .vault → live →
          engine (.pctlKeys t rd rs1 rs2) ((if p.state = .handshake then keyed else (keyed.readRecords n).closedNotice n).pumpPort n)))) ∧
    (∀ l, Issues s t { supervisor := true, srcs := [rs1, rs2], dests := [rd] } s₁ → l = v.toNat % 64 →
      let check := poolCheck c rs1 ((s₁.rfield (.lrange l) 16 12 + 1) * s₁.slotBytes l)
      (th.plate.pdepth ≠ 0 → answers (.pctlLpool t rd rs1 rs2) s₁ 9) ∧
      (∀ x, th.plate.pdepth = 0 → check = some x → exec (.pctlLpool t rd rs1 rs2) s = .next (s₁.raise t x)) ∧
      (th.plate.pdepth = 0 → check = none → s₁.listens l = true ∨ (∃ k ∈ s₁.listenPorts l, (s₁.port k).state ≠ .free) → answers (.pctlLpool t rd rs1 rs2) s₁ 9) ∧
      (th.plate.pdepth = 0 → check = none → s₁.listens l = false → (∀ k ∈ s₁.listenPorts l, (s₁.port k).state = .free) →
        ∃ u, done (.pctlLpool t rd rs1 rs2) u ∧ { u with threads := s₁.threads, pools := s₁.pools } = s₁ ∧
          u.pool l = some { cap := c, world := th.world, troot := th.troot th.world }))

/-- Frames, segments, messages, timers, raw rings and keys. With its link up a MAC only counts a frame with a bad FCS, and counts and drops one that
R302 drops, or any while the engine is off; a packet that is not TCP goes to the raw ring. In-sequence data of a plain port with nothing to send
goes to its stream and RCV.NXT moves on, an RST in sequence closes with notice RESET, a segment without a connection is answered with RST.
MESSAGE_DELIMIT queues the next message that fits. The RTO doubles and the first unacknowledged segment is sent again; a due acknowledgement is
sent; TIME-WAIT and the forwarding window end, and a port whose RELEASE waited for them is FREE. TAIL writes set the tail and run the ring; KCMD
installs and erases the slot of KSEL. Each does nothing where it has nothing to act on. Rests on R297, R302, R303, R304, R307, R310, R329, R330,
R331, R348, R350. -/
def Obligations.NetworkCommands : Prop :=
  ∀ (mac n : Nat) (m : Master) (f : Frame) (q : Packet) (g : Segment) (x : Word) (gen : BitVec 16) (s : State),
    let p := s.port n
    let up : Prop := s.clocked = true ∧ (s.rget (.macCtrl mac)).getLsbD 2 = true
    let seen : State := s.active (88 + mac / 2) 1 (blocks64 (f.octets + 4))
    let counted : State := seen.rcount (.macCnt mac 0)
    let accepted : Prop := up ∧ f.fcsOk = true ∧ counted.engineOn = true ∧ counted.dropsFrame mac f = false
    let packet : Prop := accepted ∧ f.packet = some q ∧ q.fragment = false ∧ q.headerOk = true ∧ q.routing = false
    let passes : Prop := packet ∧ q.payload = .tcp g ∧ g.checksumOk = true
    let plain : Prop := p.state = .open ∧ p.moved = none ∧ p.tcb.tsOn = false ∧ p.notice = .none
    let reset : Prop := g.rst = true ∧ g.syn = false ∧ g.fin = false ∧ g.data = [] ∧ g.seqNo = p.tcb.rcvNxt ∧ 0 < p.tcb.rcvWnd
    let closes (w : State) : Prop := (w.port n).state = .closed ∧ (w.port n).notice = .reset
    (s.clocked = true → (s.rget (.macCtrl mac)).getLsbD 2 = false → exec (.ethernetFrameReceive mac f) s = .next s.after) ∧
    (up → f.fcsOk = false → ∃ w : State, exec (.ethernetFrameReceive mac f) s = .next w.after ∧ w.rget (.macCnt mac 1) = s.rget (.macCnt mac 1) + 1 ∧
      w.ports = s.ports ∧ SameMemory s w) ∧
    (up → f.fcsOk = true → counted.engineOn = false ∨ counted.dropsFrame mac f = true → ∃ w : State, exec (.ethernetFrameReceive mac f) s = .next w.after ∧
      w.rget (.macCnt mac 0) = s.rget (.macCnt mac 0) + 1 ∧ w.rget (.macCnt mac 2) = s.rget (.macCnt mac 2) + 1 ∧ w.ports = s.ports ∧ SameMemory s w) ∧
    (accepted ∧ f.packet = none ∨ packet ∧ q.payload = .other → exec (.ethernetFrameReceive mac f) s = .next (counted.rawReceive mac f.vlan f.raw).after) ∧
    (passes → counted.portOf q g = none → g.rst = false → (g.syn = false ∨ g.ack = true) → ∃ w : State, exec (.ethernetFrameReceive mac f) s = .next w.after ∧
      Output.answer mac (counted.answerHeader mac f q) (rstFor g) ∈ w.out ∧ w.ports = s.ports) ∧
    (passes → counted.portOf q g = some n → plain → reset → ∃ w : State, exec (.ethernetFrameReceive mac f) s = .next w.after ∧ closes w) ∧
    (passes → counted.portOf q g = some n → plain → p.tls = false → p.finSeen = false → p.finRcvd = false → p.tcb.held = [] → p.txq = [] →
      p.closeReq = false → g.rst = false → g.syn = false → g.fin = false → g.ack = true → g.seqNo = p.tcb.rcvNxt → g.ackNo = p.tcb.sndNxt →
      p.tcb.sndUna = p.tcb.sndNxt → 0 < g.data.length → g.data.length ≤ p.tcb.rcvWnd →
      ∃ w : State, exec (.ethernetFrameReceive mac f) s = .next w.after ∧ (w.port n).stream = p.stream ++ g.data ∧
        (w.port n).tcb.rcvNxt = p.tcb.rcvNxt + BitVec.ofNat 32 g.data.length) ∧
    (s.clocked = true → s.engineOn = false → exec (.forwardedFrame n gen mac f) s = .next s.after) ∧
    (s.clocked = true → s.engineOn = true → p.gen ≠ gen → exec (.forwardedFrame n gen mac f) s = .next (s.rcount (.peCnt 6)).after) ∧
    (s.clocked = true → s.engineOn = true → p.gen = gen → f.packet = some q → q.payload = .tcp g → g.checksumOk = true → s.portOf q g = some n → plain → reset →
      ∃ w : State, exec (.forwardedFrame n gen mac f) s = .next w.after ∧ closes w) ∧
    (∀ skip len room tail off segs s₁, s.clocked = true → s.engineOn = true → p.state = .open → p.moved = none → p.notice = .none → p.skip = 0 →
      p.skipDelim = false → p.rxq.length < 16 → cutStream p.conf p.ring p.stream = .message skip len room tail → 0 < len →
      ((p.stream.drop skip).take len).length = len → p.place room = some off →
      (s.modPort n Port.dropSkipped).dmaCheck p p.rxbuf (p.rxbuf.base + off) len true = (s₁, .ok segs) → s₁.ports = (s.modPort n Port.dropSkipped).ports →
      ∃ (w : State) (d : RxDesc), exec (.messageDelimit n) s = .next w.after ∧ (w.port n).rxq = p.rxq ++ [d] ∧ d.len = len ∧ d.off = off ∧
        (w.port n).stream = p.stream.drop (skip + len + tail)) ∧
    (s.clocked = true → s.engineOn = false ∨ p.state = .free → exec (.retransmissionTimeout n) s = .next s) ∧
    (s.clocked = true → s.engineOn = true → p.state = .open ∨ p.state = .closing → p.gone = false → p.notice ≠ .reset → p.tcb.sndUna ≠ p.tcb.sndNxt →
      p.tcb.rtxCount < s.rtxMax →
      let c := p.tcb
      let backed : Tcb := { c with rtxCount := c.rtxCount + 1, rto := 2 * c.rto, ssthresh := max (c.flight / 2) (2 * c.mss), cwnd := c.mss, dupAcks := 0,
                                   recover := none, guard := some (c.sndNxt - 1), timed := none }
      exec (.retransmissionTimeout n) s = .next ((s.modPort n (fun p => { p with tcb := backed })).resend n)) ∧
    (s.clocked = true → p.tcb.ackDue = 0 ∨ s.engineOn = false → exec (.ackTimerExpiry n) s = .next s) ∧
    (s.clocked = true → s.engineOn = true → p.tcb.ackDue ≠ 0 → ∃ u a, exec (.ackTimerExpiry n) s = .next u ∧
      u.out = s.out ++ [Output.segment n (s.portHeader p) a] ∧ a.ackNo = p.tcb.rcvNxt ∧ a.ack = true ∧ a.data = [] ∧ (u.port n).tcb.ackDue = 0 ∧ SameMemory s u) ∧
    (s.clocked = true → p.timeWait = false → exec (.timeWaitExpiry n) s = .next s) ∧
    (s.clocked = true → p.timeWait = true → ∃ u, exec (.timeWaitExpiry n) s = .next u ∧ (u.port n).timeWait = false ∧
      (p.releaseReq = true → p.fwdWindow = false → (u.port n).state = .free) ∧ SameMemory s u) ∧
    (s.clocked = true → p.fwdWindow = false → exec (.forwardWindowExpiry n) s = .next s) ∧
    (s.clocked = true → p.fwdWindow = true → ∃ u, exec (.forwardWindowExpiry n) s = .next u ∧ (u.port n).fwdWindow = false ∧
      (p.releaseReq = true → p.timeWait = false → (u.port n).state = .free) ∧ SameMemory s u) ∧
    (s.reachesReg m (.rawTail false mac) → ∃ w : State, exec (.rawrxTailWrite m mac x) s = .next w.after ∧ w.rget (.rawTail false mac) = x ∧
      w.rawIsStopped false mac = false ∧ SameMemory s w) ∧
    (s.reachesReg m (.rawTail true mac) → ∃ w : State, exec (.rawtxTailWrite m mac x) s = .next (rawSend w mac 4096).after ∧ w.rget (.rawTail true mac) = x ∧
      w.rawIsStopped true mac = false ∧ SameMemory s w) ∧
    (s.reachesReg m .kcmd → let k := s.rfield .ksel 0 13
      let big := (s.rget .ksuite).getLsbD 0
      (∃ w : State, exec (.kcmdInstall m) s = .next w.after ∧ (w.key k).installed = true ∧ (w.key k).iv = s.stagedIv ∧ (w.key k).seqNo = 0 ∧
        (w.key k).aes256 = big ∧ (w.key k).key = (if big then s.stagedKey else s.stagedKey &&& (BitVec.allOnes 128).setWidth 256) ∧ ∀ j, j ≠ k → w.key j = s.key j) ∧
      (∃ w : State, exec (.kcmdErase m) s = .next w.after ∧ w.key k = KeySlot.reset ∧ ∀ j, j ≠ k → w.key j = s.key j))

/-- FORMAT, OPEN, recovery, drive commands, proofs and repair. FORMAT starts; its completion leaves the area header at LBA 0 and 1, an image of zeros
with tag-colour bytes 0x0F, and the ground proof's marker. OPEN reads header, marker and image and replays from the marker, or fails with its
reason; RECOVERY_COMPLETE sets DURABLE_CSN and NEXT_CSN from what was replayed and runs the journal, or ends a failed OPEN. A tail request waits for
address and root port, or is answered; a tail answer ends the asking, a unit without one passes it on, the timeout ends it. ETCH_CTRL takes its
fields, and a change of MODE its mode. The drain's timeouts issue a Write, an epoch boundary starts a proof or waits; a drive command that completes
has its effect, one that fails stops the drain or ends FORMAT or OPEN; repair ends a line's error or fails with its reason. Rests on R224, R226,
R228, R229, R230, R231, R232, R234, R235, R238, R240, R241. -/
def Obligations.DriveCommands : Prop :=
  ∀ (m : Master) (unit : BitVec 10) (fmtid pos x : Word) (d : List Byte) (line : Nat) (status : BitVec 16) (s : State),
    let e := s.etch
    let ready : Prop := s.etchBit 7 = false ∧ e.locked = false ∧ s.driveUp 0 = true
    let run : Prop := s.clocked = true ∧ s.halted = false ∧ s.journalOpen = true ∧ e.drainStopped = false
    let chain : Prop := s.clocked = true ∧ s.halted = false
    let own := s.decisionPoints s.ownInto.lo (s.ownInto.lo + s.ownInto.size)
    (s.reachesReg m .etchCmd → ready → ∃ w : State, exec (.format m) s = .next w.after ∧ w.etch.formatting = true ∧ w.etchBit 7 = true ∧ SameMemory s w) ∧
    (s.clocked = true → e.formatting = true → 32 ≤ s.ownImg → ∃ u, exec .formatComplete s = .next u ∧ u.etch.formatting = false ∧ u.etchBit 7 = false ∧
      u.drive0.headerAt 0 = some s.areaHeader ∧ u.drive0.headerAt 1 = some s.areaHeader ∧ u.drive0.markerAt 0 = some (s.markerFor 0 0 0) ∧
      (∀ k, k < 15 * 4096 → Map.get 0 u.drive0.cells (17 * 4096 + k) = 0) ∧ (∀ k, k < s.ownSize → Map.get 0 u.drive0.cells (lbaByte s.ownImg + k) = 0) ∧
      (∀ k, k < s.ownSize / 16 → Map.get 0x0F u.drive0.tags (tagRegion s.ownImg s.ownSize + k) = 0x0F) ∧ SameMemory s u) ∧
    (s.clocked = true → e.formatting = false → exec .formatComplete s = .next s) ∧
    (
      let s₀ := State.setEtchBit { s with etch := { s.etch with openFail := none, replay := none } } 7 true
      let own₀ := s₀.decisionPoints s₀.ownInto.lo (s₀.ownInto.lo + s₀.ownInto.size)
      let opens (f : Nat) : Prop := ∃ w : State, exec (.openJournal m) s = .next w.after ∧ w.etchBit 7 = true ∧ w.etch.openFail = some f ∧ w.etch.replay = none
      s.reachesReg m .etchCmd → ready →
      (s.drive0.header = none → opens 1) ∧
      (∀ h, s.drive0.header = some h → h.fmtid ≠ s.rget .fmtid ∨ h.durSize ≠ (s.rget .durSize).toNat → opens 2) ∧
      (∀ h, s.drive0.header = some h → h.fmtid = s.rget .fmtid → h.durSize = (s.rget .durSize).toNat →
        (s.drive0.bestMarker h = none → opens 3) ∧
        (∀ mk s₁, s.drive0.bestMarker h = some mk →
          (firstDenied s₀ own₀ = (s₁, true) → opens 4) ∧
          (firstDenied s₀ own₀ = (s₁, false) → ∃ (w : State) (r : Replay), exec (.openJournal m) s = .next w.after ∧ w.etch.replay = some r ∧ r.header = h ∧
            r.proof = mk.proof ∧ r.scsn = mk.scsn ∧ r.markerPos = mk.jpos ∧ mk.jpos ≤ r.pos ∧ mk.scsn < r.expect)))) ∧
    (∀ r, s.clocked = true → s.etchBit 7 = true → e.formatting = false → e.openFail = none → e.replay = some r → r.asking = [] →
      ∃ w : State, exec .recoveryComplete s = .next w.after ∧ w.rget .durableCsn = BitVec.ofNat 64 (r.expect - 1) ∧ w.rget .nextCsn = BitVec.ofNat 64 r.expect ∧
        w.journalOpen = true ∧ w.etchBit 7 = false ∧ w.etch.locked = true) ∧
    (∀ f, s.clocked = true → s.etchBit 7 = true → e.formatting = false → e.openFail = some f →
      ∃ w : State, exec .recoveryComplete s = .next w.after ∧ w.etchBit 7 = false ∧ w.journalOpen = s.journalOpen ∧ w.etch.replay = none ∧ w.etch.openFail = none) ∧
    (chain → (s.rget .sdAddr).getLsbD 15 = false ∨ (s.rget (.rpStat 0)).getLsbD 0 = false → ∃ u, exec (.tailRequest unit fmtid pos) s = .next u ∧
      u.etch.tailAsked = e.tailAsked ++ [(unit, fmtid, pos.toNat)] ∧ u.out = s.out) ∧
    (chain → (s.rget .sdAddr).getLsbD 15 = true → (s.rget (.rpStat 0)).getLsbD 0 = true → e.tailAsked = [] →
      let held := s.heldTail unit fmtid pos.toNat
      exec (.tailRequest unit fmtid pos) s = .next (held.1.chainOut unit (.tailAnswer unit held.2))) ∧
    (∀ r rest s₁, s.clocked = true → e.replay = some r → r.asking = unit :: rest →
      (chain → ∃ u r', exec (.tailAnswer unit none) s = .next u ∧ u.etch.replay = some r' ∧ r'.asking = rest ∧ r'.pos = r.pos ∧ SameMemory s u) ∧
      (chain → firstDenied s own = (s₁, false) →
        ∃ u r', exec (.tailAnswer unit (some d)) s = .next u ∧ u.etch.replay = some r' ∧ r'.asking = [] ∧ r.pos ≤ r'.pos) ∧
      (chain → firstDenied s own = (s₁, true) → exec (.tailAnswer unit (some d)) s = .next (s₁.openFails 4)) ∧
      (∃ u r', exec .tailRequestTimeout s = .next u ∧ u.etch.replay = some r' ∧ r'.asking = [] ∧ r'.pos = r.pos ∧ SameMemory s u)) ∧
    (
      let s₀ := s.rset .etchCtrl (fieldWrite (s.rget .etchCtrl) x (RName.etchCtrl.fields s.i20))
      s.reachesReg m .etchCtrl → bitsOf x 8 2 ≤ 1 →
      (s.etchMode = bitsOf x 8 2 → exec (.etchCtrlWrite m x) s = .next s₀.after) ∧
      (s.etchMode = 0 → bitsOf x 8 2 = 1 → exec (.etchCtrlWrite m x) s = .next (if s.emode = 0 then (s₀.setEmode 1).nvmeSafe else s₀.setEmode 1).after) ∧
      (s.etchMode = 1 → bitsOf x 8 2 = 0 → exec (.etchCtrlWrite m x) s = .next (if s.mirrorTarget.isSome then s₀.setEmode 0 else (s₀.setEmode 0).fallback).after)) ∧
    (∀ upto s₁, run → s.ue = [] → e.writeIssued < upto → tailDenied s (segments (e.writeIssued % ringSize) (upto - e.writeIssued)) = (s₁, false) → s₁.etch = e →
      (upto = s.jposition → ∃ u, exec .partialBlockTimeout s = .next u ∧ u.etch.nvme = e.nvme ++ [.ring upto] ∧ u.etch.writeIssued = upto) ∧
      (s.emode ≠ 0 → upto = min s.jposition (e.writeIssued + 65536) →
        ∃ u, exec .nvmeSafeGatherTimeout s = .next u ∧ u.etch.nvme = e.nvme ++ [.ring upto] ∧ u.etch.writeIssued = upto)) ∧
    (s.clocked = true → (s.jposition ≤ e.writeIssued → exec .partialBlockTimeout s = .next s) ∧ (s.emode = 0 → exec .nvmeSafeGatherTimeout s = .next s)) ∧
    (∀ c r, s.clocked = true → e.nvme = c :: r → c ≠ .zeroHeader →
      exec (.nvmeCommandComplete 0) s = .next (State.driveDone { s with etch := { s.etch with nvme := r } } c).after) ∧
    (∀ r p csn j, s.clocked = true → e.nvme = .marker p csn j :: r → p < 2 ^ 64 → csn < 2 ^ 64 → j < 2 ^ 64 →
      ∃ w : State, exec (.nvmeCommandComplete 0) s = .next w.after ∧ w.rget .proofNum = BitVec.ofNat 64 p ∧ w.rget .proofCsn = BitVec.ofNat 64 csn ∧
        w.etch.proofPos = j ∧ w.drive0.markerAt (p % 16) = some (s.markerFor p csn j) ∧ SameMemory s w) ∧
    (∀ c r, s.clocked = true → e.nvme = c :: r → c ≠ .zeroHeader → (∀ k, c ≠ .repairRead k) → status ≠ 0 →
      ∃ w : State, exec (.nvmeCommandComplete status) s = .next w.after ∧ w.etch.drainStopped = true ∧ w.etchBit 4 = true ∧ SameMemory s w) ∧
    (∀ r, s.clocked = true → e.nvme = .repairRead line :: r → status ≠ 0 → ∃ w : State, exec (.nvmeCommandComplete status) s = .next w.after ∧
      line ∉ w.etch.repair ∧ w.ue = s.ue ∧ SameMemory s w) ∧
    (s.clocked = true → e.nvme = [] → status ≠ 0 →
      (e.formatting = true → ∃ w : State, exec (.nvmeCommandComplete status) s = .next w.after ∧ w.etch.formatting = false ∧ w.etchBit 7 = false ∧ w.etchBit 4 = true) ∧
      (e.formatting = false → s.etchBit 7 = true → ∃ w : State, exec (.nvmeCommandComplete status) s = .next w.after ∧ w.etch.openFail = some 0 ∧
        w.etchBit 4 = true)) ∧
    (run → s.pfail = false → e.proof = none → ∃ u, exec .proofEpochBoundary s = .next u ∧ u.etch.dirty = [] ∧ SameMemory s u ∧
      u.etch.proof = some { num := (s.rget .proofNum).toNat + 1, scsn := s.durable, jpos := s.firstAfter s.durable } ∧
      u.etch.nvme = e.nvme ++ e.dirty.map .block ++ [.cursors, .flush, .marker ((s.rget .proofNum).toNat + 1) s.durable (s.firstAfter s.durable)]) ∧
    (∀ p, run → s.pfail = false → e.proof = some p → ∃ u, exec .proofEpochBoundary s = .next u ∧ u.etch.boundaryWaits = true ∧ u.etch.nvme = e.nvme) ∧
    (s.clocked = true → ¬ run ∨ s.pfail = true → exec .proofEpochBoundary s = .next s) ∧
    (
      let s₀ := { s with etch := { s.etch with repair := s.etch.repair.filter (fun l => decide (l ≠ line)),
                                               nvme := s.etch.nvme.filter (fun c => decide (c ≠ .repairRead line)) } }
      let lo := max s₀.etch.proofPos s₀.etch.drained
      let tail := segments (lo % ringSize) (s₀.jposition - lo)
      let found (w : State) : Option (List EntryIn) :=
        repairEntries w.journalCells line w.durable w.durableEnd (w.jposition - w.etch.proofPos + 1) w.etch.proofPos
      let fails (w : State) (why : Nat) : Prop := exec (.lineRepairComplete line) s = .next (w.repairFails line why).after
      s.clocked = true → line ∈ e.repair →
      (s.driveUp 0 = false → ∃ w : State, exec (.lineRepairComplete line) s = .next w.after ∧ line ∉ w.etch.repair ∧ w.ue = s.ue ∧ SameMemory s w) ∧
      (∀ s₁, s.driveUp 0 = true →
        (tailDenied s₀ tail = (s₁, true) → fails s₁ 3) ∧
        (tailDenied s₀ tail = (s₁, false) → (found s₁ = none → fails s₁ 2) ∧
          (∀ es s₂, found s₁ = some es → (repairDenied s₁ (4 * line) 4 = (s₂, true) → fails s₂ 3) ∧
            (repairDenied s₁ (4 * line) 4 = (s₂, false) → ∃ w : State, exec (.lineRepairComplete line) s = .next w.after ∧ w.inError line = false))))) ∧
    (s.clocked = true → line ∉ e.repair → exec (.lineRepairComplete line) s = .next s.after)

/-- Mirroring, fallback, the fence check and power failure. A record of an accepted source that no gate denies stands in the mirror ring, its tail grows
and an acknowledgement leaves on a route; any other, and one under PFAIL, is dropped. A drained position frees the records that end at or before it;
the target's acknowledgement covers the records before it, and one that it covers alone is durable. A missing acknowledgement starts fallback: EMODE
2, every record needs its Write. A fence check that finds LBA 0 changed closes the journal. A power failure that lasts its filter sets PFAIL and
drains; the drain's end sets PFAIL_DONE, with a valid spill header where it spilled. Rests on R223, R224, R225, R236, R345, R347, R353, R456. -/
def Obligations.MirrorAndPowerFail : Prop :=
  ∀ (unit : BitVec 10) (jpos : Word) (d : List Byte) (s : State),
    let e := s.etch
    let j := jpos.toNat
    let piece := chunk (segments (j % ringSize) d.length) d
    s.clocked = true →
    (s.halted = false → s.accepts unit = true → s.pfail = false →
      (∀ s₁, mirrorWrite s piece = (s₁, false) → d.length ≤ ringSize → ∃ u, exec (.mirrorRecord unit jpos d) s = .next u ∧
        u.etch.mirrorSrc = some unit ∧ u.etch.mirrorTo = j + d.length ∧
        u.etch.mirrorFrom = (if e.mirrorSrc = some unit ∧ e.mirrorTo = j then e.mirrorFrom else j) ∧
        (∀ i b, d[i]? = some b → u.byteAt (mirrorRing + (j + i) % ringSize) = b) ∧
        (∀ a, a < mirrorRing ∨ mirrorRing + ringSize ≤ a → u.byteAt a = s.byteAt a) ∧ u.gran = s.gran ∧
        (∀ l, s.nextLink unit = some l → s.linkUp l = true → Output.ack unit (j + d.length) ∈ u.out)) ∧
      (∀ s₁, mirrorWrite s piece = (s₁, true) → exec (.mirrorRecord unit jpos d) s = .next s₁)) ∧
    (s.halted = true ∨ s.accepts unit = false ∨ s.pfail = true → exec (.mirrorRecord unit jpos d) s = .next s) ∧
    (s.halted = false → s.mirrorTarget = some unit →
      let acked : State := { s with etch := { s.etch with recs := s.etch.recs.map (fun r => if r.mirrored && decide (r.pos + r.len ≤ j) then { r with acked := true } else r) } }
      exec (.mirrorAck unit jpos) s = .next acked.advance.after) ∧
    (∀ r, s.halted = false → s.mirrorTarget = some unit → e.recs = [r] → r.mirrored = true → r.pos + r.len ≤ j → e.fenced = false → e.fenceDue = false →
      r.tid = none → r.writes = [] → r.cursors = [] → (∀ x ∈ s.ports, x.2.sends = false) →
      ∃ w : State, exec (.mirrorAck unit jpos) s = .next w.after ∧ w.rget .durableCsn = BitVec.ofNat 64 r.csn ∧ w.etch.recs = [] ∧ SameMemory s w) ∧
    (s.halted = false → s.mirrorTarget ≠ some unit → exec (.mirrorAck unit jpos) s = .next s.after) ∧
    (s.waitsForAck = true → exec .mirrorTimeout s = .next s.fallback.after) ∧
    (s.waitsForAck = true → e.drainStopped = true → (∀ r ∈ e.recs, r.media = false ∧ r.journalled = true) → ∃ w : State, exec .mirrorTimeout s = .next w.after ∧
      w.emode = 2 ∧ w.etchBit 2 = true ∧ w.etch.recs = e.recs.map (fun r => { r with mirrored := false }) ∧ SameMemory s w) ∧
    (s.waitsForAck = false → exec .mirrorTimeout s = .next s) ∧
    (s.halted = false → e.mirrorSrc = some unit →
      let from_ := (e.mirrorEnds.filter (fun k => decide (k ≤ j))).foldl max e.mirrorFrom
      ∃ u, exec (.drainedPosition unit jpos) s = .next u ∧ u.etch.mirrorFrom = from_ ∧ u.etch.mirrorEnds = e.mirrorEnds.filter (fun k => decide (j < k)) ∧
        u.rget .mirrorTailBytes = BitVec.ofNat 64 (e.mirrorTo - from_) ∧ SameMemory s u) ∧
    (s.halted = false → e.mirrorSrc ≠ some unit → exec (.drainedPosition unit jpos) s = .next s) ∧
    (∀ v, e.reported ≠ e.drained → s.mirrorTarget = some v → ∃ u, exec .drainedPositionReport s = .next u ∧ u.etch.reported = e.drained ∧ SameMemory s u) ∧
    (e.reported = e.drained ∨ s.mirrorTarget = none → exec .drainedPositionReport s = .next s) ∧
    (s.emode = 2 → s.journalOpen = true → e.fenced = false → s.fenceOk = false → ∃ u, exec .fenceCheck s = .next u ∧ u.journalOpen = false ∧
      u.etch.fenced = true ∧ u.etch.proof = none ∧ u.rget .nextCsn = s.rget .nextCsn ∧ SameMemory s u) ∧
    (s.emode ≠ 2 ∨ s.journalOpen = false ∨ e.fenced = true ∨ s.fenceOk = true → exec .fenceCheck s = .next s) ∧
    (s.pfail = false → ∃ u, exec .pwrfailAssert s = .next u ∧ u.etch = { e with pfailFilter := true } ∧ u.regs = s.regs) ∧
    (s.pfail = true → exec .pwrfailAssert s = .next s) ∧
    (∃ u, exec .pwrfailDeassert s = .next u ∧ u.etch = { e with pfailFilter := false } ∧ u.regs = s.regs) ∧
    (e.pfailFilter = true → ∃ u, exec .pwrfailFilterExpiry s = .next u ∧ u.pfail = true ∧ u.etch.draining = true ∧ u.etch.proof = none ∧
      .spill ∈ u.etch.nvme ∧ SameMemory s u) ∧
    (e.pfailFilter = false → exec .pwrfailFilterExpiry s = .next s) ∧
    (e.draining = true → e.warmPending = false → exec .powerFailDrainComplete s = .next s.drainDone.after) ∧
    (e.draining = true → e.warmPending = true → exec .powerFailDrainComplete s = .next s.drainDone.warmNow) ∧
    (e.draining = true → e.warmPending = false → (∀ c ∈ e.nvme, c = .spill ∨ c.survives = true) → ∃ w : State, exec .powerFailDrainComplete s = .next w.after ∧
      w.etch.draining = false ∧ w.etchBit 10 = true ∧ SameMemory s w ∧ (.spill ∈ e.nvme → (w.drive0.spillAt (s.rget .spillLba).toNat).isSome = true))

/-- Flits, links, probes and enumeration. A flit in sequence that passes its checks is acknowledged, its sequence number kept and the buffers it freed
reported; another is answered with NAK, and counts as a failure only where a check fails, the eighth in a row bringing the link down. A link whose
time runs out or that loses training goes down, once, is counted, and its neighbour is probed by the other route or, with none, is lost; one that
trains again is up with its lanes and neighbour. A probe for this unit is answered, another passes on or is answered where its link is down; a
probe's end forgets it and, failing, loses the neighbour. A token gives a unit the next position and passes on, at 63 no address; the anchor's own
token and the final list end enumeration, its time sends the token WEST; a joining unit is given an address. Nothing crosses the chain once the unit
has halted. Rests on R23, R335, R339, R340, R341, R352, R421. -/
def Obligations.ChainCommands : Prop :=
  ∀ (l : Link) (flit : List Byte) (dest : Option (BitVec 10)) (lanes : Nat) (nb : Option (BitVec 10)) (origin target : BitVec 10) (via : Link) (k : Token)
      (ring : BitVec 4) (order : List (BitVec 6)) (closed : Bool) (p : BitVec 6) (u₀ : UnitAddr) (s : State),
    let h : Word := BitVec.ofNat 64 (leValue (flit.take 8))
    let checks : Prop := flit.length = 256 ∧ (crc64 0 (flit.take 248)).toNat = leValue (flit.drop 248) ∧ bitsOf h 32 5 ≠ 31
    let inOrder : Prop := BitVec.ofNat 12 (bitsOf h 52 12) = (s.link l).rxSeq + 1
    let ch := bitsOf h 37 2
    let freed := (s.link l).freed
    let n := linkNo l
    let noOverride : Prop := (s.rget .sdAddrOvr).getLsbD 15 = false
    s.clocked = true →
    (s.linkUp l = true → checks → inOrder → ∃ w : State, exec (.flitReceive l ⟨flit, dest⟩) s = .next w.after ∧ (w.link l).rxSeq = (s.link l).rxSeq + 1 ∧
      (w.link l).failures = 0 ∧ (w.link l).ackSeq = BitVec.ofNat 12 (bitsOf h 40 12) ∧ (w.link l).freed = [0, 0, 0] ∧ SameMemory s w ∧
      w.out.getLast? = some (.flitAnswer l false ((s.link l).rxSeq + 1) (if ch < 3 then freed.set ch (freed.getD ch 0 + 1) else freed)) ∧
      (h.getLsbD 39 = false → w.rget (.sdCnt 0) = s.rget (.sdCnt 0))) ∧
    (s.linkUp l = true → checks → ¬ inOrder → ∃ w : State, exec (.flitReceive l ⟨flit, dest⟩) s = .next w.after ∧ (w.link l).failures = (s.link l).failures ∧
      (w.link l).rxSeq = (s.link l).rxSeq ∧ w.out = s.out ++ [.flitAnswer l true (s.link l).rxSeq freed]) ∧
    (s.linkUp l = true → ¬ checks → (s.link l).failures < 7 → ∃ w : State, exec (.flitReceive l ⟨flit, dest⟩) s = .next w.after ∧
      (w.link l).failures = (s.link l).failures + 1 ∧ (w.link l).rxSeq = (s.link l).rxSeq ∧ w.out = s.out ++ [.flitAnswer l true (s.link l).rxSeq freed]) ∧
    (s.linkUp l = true → ¬ checks → 7 ≤ (s.link l).failures → exec (.flitReceive l ⟨flit, dest⟩) s =
      .next (((s.active (sudonDomain l) 0 1).modLink l (fun x => { x with failures := x.failures + 1 })).linkDown l).after) ∧
    (s.linkUp l = false → exec (.flitReceive l ⟨flit, dest⟩) s = .next s.after) ∧
    (∀ c ∈ ([.linkIdleTimeout l, .linkTrainingLost l] : List Instr),
      exec c s = .next (s.linkDown l).after ∧
      (s.linkUp l = true → s.neighbour n = none → (s.linkDown l).linkUp l = false ∧ (s.linkDown l).rget (.sdCnt 1) = s.rget (.sdCnt 1) + 1 ∧
        (s.linkDown l).link l = LinkState.reset ∧ SameMemory s (s.linkDown l)) ∧
      (s.linkUp l = true → s.neighbour n = some u₀ → s.otherRoute l = true → ((s.linkDown l).link l).probing = some u₀ ∧
        (s.linkDown l).linkUp l = false ∧ (s.linkDown l).out = s.out ++ [.probe s.unitAddr u₀ (opposite l)]) ∧
      (s.linkUp l = true → s.neighbour n = some u₀ → s.otherRoute l = false → s.sudon.hoStep = .idle → s.etch.mirrorSrc = none →
        u₀ ∈ (s.linkDown l).sudon.lost) ∧
      (s.linkUp l = false → exec c s = .next s.after)) ∧
    (s.linkUp l = false → (s.rget .sdCtrl).getLsbD 0 = true → s.halted = false → lanesUsed (linkLanes l) lanes ≠ 0 → ∃ w : State,
      exec (.linkRetrain l lanes nb) s = .next w.after ∧ w.linkUp l = true ∧ w.rfield (.sdLink n) 2 3 = lanesUsed (linkLanes l) lanes ∧
        w.neighbour n = nb ∧ SameMemory s w) ∧
    (s.linkUp l = true ∨ (s.rget .sdCtrl).getLsbD 0 = false ∨ s.halted = true ∨ lanesUsed (linkLanes l) lanes = 0 →
      exec (.linkRetrain l lanes nb) s = .next s.after) ∧
    ((s.link l).probing = none → exec (.probeTimeout l) s = .next s.after) ∧
    ((s.link l).probing = some u₀ → exec (.probeTimeout l) s = .next (s.unitLost l u₀).after ∧
      (s.sudon.hoStep = .idle → s.etch.mirrorSrc = none → ((s.unitLost l u₀).link l).probing = none ∧ u₀ ∈ (s.unitLost l u₀).sudon.lost)) ∧
    (s.straps.anchor = true → s.sudon.enumDone = false → s.sudon.westSent = false → s.hasAddr = true → s.linkUp .west = true →
      exec .enumerationTokenTimeout s = .next (State.linkOut { s with sudon := { s.sudon with westSent := true } } .west
        (.token { own := true, east := false, ring := s.straps.ring, position := 0, order := s.sudon.order }))) ∧
    (s.straps.anchor = true → s.sudon.enumDone = false → s.sudon.westSent = false → s.hasAddr = true → s.linkUp .west = false →
      ∃ u, exec .enumerationTokenTimeout s = .next u ∧ u.sudon.enumDone = true ∧ u.boot.step6 = true ∧ u.sudon.order = s.sudon.order) ∧
    (s.straps.anchor = false → s.hasAddr = false → s.sudon.enumDone = false → s.sudon.tokenSeen = false →
      ∃ u, exec .addressTimeout s = .next u ∧ u.hasAddr = false ∧ u.sudon.enumDone = true ∧ u.boot.step6 = true) ∧
    (s.hasAddr = true → s.sudon.enumDone = false → exec .addressTimeout s = .next s) ∧
    (s.halted = true → ∀ c ∈ ([.probe origin target via, .probeAnswer l true, .probeAnswer l false, .enumerationToken k, .positionList ring order closed,
      .addressRequest l, .joinAnswer l ring p] : List Instr), exec c s = .next s) ∧
    (s.halted = false →
      (s.hasAddr = true → exec (.probe origin s.unitAddr via) s = .next (s.linkOut via (.probeAnswer origin true))) ∧
      (target ≠ s.unitAddr → s.linkUp (opposite via) = true → exec (.probe origin target via) s = .next (s.linkOut (opposite via) (.probe origin target (opposite via)))) ∧
      (target ≠ s.unitAddr → s.linkUp (opposite via) = false → (s.link (opposite via)).probing ≠ some target →
        exec (.probe origin target via) s = .next (s.linkOut via (.probeAnswer origin false))) ∧
      ((s.link l).probing = none → exec (.probeAnswer l true) s = .next s.after ∧ exec (.probeAnswer l false) s = .next s.after) ∧
      ((s.link l).probing = some u₀ → exec (.probeAnswer l false) s = .next (s.unitLost l u₀).after ∧
        ∃ w : State, exec (.probeAnswer l true) s = .next w.after ∧ (w.link l).probing = none ∧ w.sudon.lost = s.sudon.lost) ∧
      (s.straps.anchor = false → s.hasAddr = false → s.sudon.enumDone = false → noOverride →
        (k.east = true → k.position ≠ 63 → ∃ w : State, exec (.enumerationToken k) s = .next w.after ∧ w.hasAddr = true ∧
          w.unitAddr = addrOf k.ring (k.position + 1) ∧ SameMemory s w ∧ w.sudon.order = k.order ++ [k.position + 1] ∧
          (s.linkUp .east = true → w.out.getLast? = some (.token { k with position := k.position + 1, order := k.order ++ [k.position + 1] }))) ∧
        (k.east = true → k.position = 63 → ∃ w : State, exec (.enumerationToken k) s = .next w.after ∧ w.hasAddr = false ∧ SameMemory s w ∧
          w.out.getLast? = some (.token k)) ∧
        (k.east = false → (∀ e, k.order.getLast? = some e → e.toNat < (k.position - 1).toNat) → ∃ w : State, exec (.enumerationToken k) s = .next w.after ∧
          w.hasAddr = true ∧ w.unitAddr = addrOf k.ring (k.position - 1) ∧ SameMemory s w ∧ w.sudon.order = (k.position - 1) :: k.order)) ∧
      (s.straps.anchor = true → k.ring = s.straps.ring → k.own = true → k.east = true → s.sudon.enumDone = false → s.sudon.westSent = false →
        ∃ w : State, exec (.enumerationToken k) s = .next w.after ∧ w.sudon.enumDone = true ∧ w.sudon.order = k.order ∧ w.boot.step6 = true) ∧
      (s.straps.anchor = true → k.ring ≠ s.straps.ring ∨ k.own = false → s.sudon.enumDone = false → exec (.enumerationToken k) s = .next (s.anomaly 2).after) ∧
      exec (.positionList ring order closed) s = .next ((s.listArrives ring order closed).enumerated).after ∧
      (s.straps.anchor = false ∨ s.sudon.enumDone = true → s.sudon.hoStep = .idle → s.etch.mirrorSrc = none →
        ((s.listArrives ring order closed).enumerated).sudon.enumDone = true ∧ ((s.listArrives ring order closed).enumerated).boot.step6 = true ∧
        (s.hasAddr = true → ((s.listArrives ring order closed).enumerated).sudon.order = order)) ∧
      (s.straps.anchor = true → s.sudon.enumDone = false → s.sudon.westSent = false → ∃ w : State, exec (.positionList ring order closed) s = .next w.after ∧
        w.sudon.enumDone = false ∧ w.boot = s.boot ∧ (s.hasAddr = true → w.sudon.order = order)) ∧
      (s.straps.anchor = true → s.sudon.enumDone = false → s.sudon.westSent = true → order.head? ≠ some (posOf s.unitAddr) →
        ∃ w : State, exec (.positionList ring order closed) s = .next w.after ∧ w.sudon.enumDone = true ∧ w.boot.step6 = true) ∧
      (s.hasAddr = false → exec (.addressRequest l) s = .next s) ∧
      (s.hasAddr = true → l = .crossN ∨ l = .crossS → exec (.addressRequest l) s = .next (s.linkOut l (.addressAnswer l (ringOf s.unitAddr) s.sudon.place))) ∧
      (s.hasAddr = true → l = .west ∨ l = .east ∧ s.sudon.place ≠ 63 → s.sudon.order.length < 64 → ∃ u, exec (.addressRequest l) s = .next u ∧
        .addressAnswer l (ringOf s.unitAddr) s.sudon.place ∈ u.out ∧
        u.neighbour n = some (addrOf (ringOf s.unitAddr) (if l = .east then s.sudon.place + 1 else s.sudon.place - 1))) ∧
      (s.hasAddr = false → noOverride → l = .west ∧ p ≠ 63 ∨ l = .east → ∃ u, exec (.joinAnswer l ring p) s = .next u ∧ u.hasAddr = true ∧
        u.unitAddr = addrOf ring (if l = .west then p + 1 else p - 1) ∧ SameMemory s u) ∧
      (s.hasAddr = false → p = 63 → ∃ u, exec (.joinAnswer .west ring p) s = .next u ∧ u.hasAddr = false ∧ SameMemory s u) ∧
      (s.hasAddr = true ∨ l = .crossN ∨ l = .crossS → exec (.joinAnswer l ring p) s = .next s))

/-- Takeover and handover. TAKE of a lost source starts by fencing its drive where header and size fit, fails with reason 1 for another or no drive, 2
for too small an area, and does nothing for a source that is not lost or while one runs. Its wait's end loads the image and replays from the best
marker; its completion frees the mirror ring. HO_START of an object held here asks the target to reserve, or fails with reason 1 where it is out of
reach; otherwise it does nothing. A reservation keeps a free port or slot and answers with it, or with its reason. The answer goes on to the
handover plate or ends the handover; a transfer must match what is reserved, an acknowledgement what was sent; another is dropped and counted. A
wait that expires fails with its reason, or gives back what was reserved. Rests on R23, R343, R348, R349, R351, R355. -/
def Obligations.TakeoverAndHandover : Prop :=
  ∀ (m : Master) (u₀ : UnitAddr) (h : AreaHeader) (r : Replay) (q : Reservation) (x : Transfer) (part : Bool) (id : Nat) (gen : BitVec 16) (obj reason : Nat)
      (a : ReserveAnswer) (s s₁ : State),
    let z := s.sudon
    let d := s.rget (.hoDesc 0)
    let target : UnitAddr := BitVec.ofNat 10 (bitsOf d 32 10)
    let isPart : Bool := decide (bitsOf d 62 2 = 1)
    let o := if isPart then bitsOf d 0 4 else bitsOf d 0 12
    let held : Prop := if isPart then s.partState o = 1 else (s.port o).state ≠ .free ∧ (s.port o).moved = none
    let kept (n : Nat) : Incoming := { sender := q.sender, partition := q.partition, gen := q.gen, obj := n, source := (if q.partition then q.partid else q.obj), arrived := false, csn := none, oldCur := 0, proof := 0, package := none }
    let told (w : State) (y : ReserveAnswer) : State :=
      w.chainOut q.sender (.reserveAnswer q.sender q.partition (if q.partition then q.partid else q.obj) q.gen y)
    let inside : Prop := (s.rget .durBase).toNat ≤ q.tbase ∧ q.tbase + q.size * 2 ^ 24 ≤ (s.rget .durBase).toNat + (s.rget .durSize).toNat
    (s.reachesReg m .sdCmd → s.etch.mirrorSrc = some u₀ → u₀ ∈ z.lost → z.take = .idle →
      (s.driveUp 1 = true → s.drive1.header = some h → h.unit = u₀ → h.durSize + 2 ^ 24 ≤ s.takeBytes → ∃ w : State, exec (.take m) s = .next w.after ∧
        w.sudon.take = .fencing ∧ w.sudon.takeUnit = u₀ ∧ w.etch.nvme = s.etch.nvme ++ [.zeroHeader] ∧ w.rfield .takeStat 0 2 = 1) ∧
      (s.driveUp 1 = false ∨ s.drive1.header = none ∨ s.drive1.header = some h ∧ h.unit ≠ u₀ → ∃ w : State, exec (.take m) s = .next w.after ∧
        w.sudon.take = .idle ∧ w.rfield .takeStat 0 2 = 3 ∧ w.rfield .takeStat 2 8 = 1) ∧
      (s.driveUp 1 = true → s.drive1.header = some h → h.unit = u₀ → s.takeBytes < h.durSize + 2 ^ 24 → ∃ w : State, exec (.take m) s = .next w.after ∧
        w.sudon.take = .idle ∧ w.rfield .takeStat 0 2 = 3 ∧ w.rfield .takeStat 2 8 = 2)) ∧
    (s.reachesReg m .sdCmd → s.etch.mirrorSrc = none ∨ (∀ u, s.etch.mirrorSrc = some u → u ∉ z.lost) ∨ z.take ≠ .idle → exec (.take m) s = .next s.after) ∧
    (∀ mk, s.clocked = true → z.take = .waiting → z.takeReplay = some r → s.drive1.bestMarker r.header = some mk →
      firstDenied s (s.decisionPoints s.takeBase (s.takeBase + r.header.durSize + 65536)) = (s₁, false) →
      ∃ u r', exec .takeWaitExpiry s = .next u ∧ u.sudon.take = .loading ∧ u.sudon.takeReplay = some r' ∧ r'.scsn = mk.scsn ∧ mk.scsn < r'.expect) ∧
    (s.clocked = true → z.take = .loading → z.takeReplay = some r → ∃ u, exec .takeoverComplete s = .next u ∧ u.sudon.take = .idle ∧
      u.etch.mirrorSrc = none ∧ u.etch.mirrorFrom = u.etch.mirrorTo ∧ u.rget .mirrorTailBytes = 0 ∧ u.rfield .takeStat 0 2 = 2 ∧ SameMemory s u) ∧
    (s.clocked = true → z.take ≠ .waiting → exec .takeWaitExpiry s = .next s) ∧
    (s.clocked = true → z.take ≠ .loading → exec .takeoverComplete s = .next s) ∧
    (s.reachesReg m .sdCmd →
      (held → s.rfield .hoStat 0 2 ≠ 1 → z.hoStep = .idle → s.reaches target = true → ∃ w : State, exec (.hoStart m) s = .next w.after ∧
        w.sudon.hoStep = .reserving ∧ w.sudon.hoTarget = target ∧ w.sudon.hoPartition = isPart ∧ w.sudon.hoObj = o ∧
        w.sudon.hoGen = s.hoGenNow isPart o + 1 ∧ w.rget .hoStat = 1 ∧ w.ports = s.ports) ∧
      (held → s.rfield .hoStat 0 2 ≠ 1 → z.hoStep = .idle → s.reaches target = false → ∃ w : State, exec (.hoStart m) s = .next w.after ∧
        w.sudon.hoStep = .idle ∧ w.rget .hoStat = 0x103 ∧ w.ports = s.ports) ∧
      (¬ held ∨ s.rfield .hoStat 0 2 = 1 ∨ z.hoStep ≠ .idle → exec (.hoStart m) s = .next s.after)) ∧
    (s.clocked = true → s.halted = true →
      ∀ c ∈ ([.handoverReserve q, .handoverReserveAnswer ⟨⟨part, id, gen⟩, a⟩, .handoverTransfer x, .handoverAck ⟨part, id, gen⟩] : List Instr), exec c s = .next s) ∧
    (s.clocked = true → s.halted = false → s.hasAddr = false → exec (.handoverReserve q) s = .next s ∧ exec (.handoverTransfer x) s = .next s.after) ∧
    (s.clocked = true → s.halted = false → s.hasAddr = true →
      (q.partition = false →
        (s.pool q.tlist = none ∨ s.freeOf q.tlist = none → exec (.handoverReserve q) s = .next (told s (.refused 2))) ∧
        (∀ pool, s.pool q.tlist = some pool → s.freeOf q.tlist = some obj →
          (s.slotBytes q.tlist < q.bytes → exec (.handoverReserve q) s = .next (told s (.refused 3))) ∧
          (q.bytes ≤ s.slotBytes q.tlist → ∃ w, exec (.handoverReserve q) s = .next (told w (.reserved obj)) ∧ (w.port obj).reserved = true ∧
            (w.port obj).listener = q.tlist ∧ w.sudon.incoming = z.incoming ++ [kept obj] ∧ SameMemory s w))) ∧
      (q.partition = true →
        (s.partState q.tslot ≠ 0 ∨ ¬ inside → exec (.handoverReserve q) s = .next (told s (.refused 5))) ∧
        (s.partState q.tslot = 0 → inside → ∃ w, exec (.handoverReserve q) s = .next (told w (.reserved q.tslot)) ∧ w.partState q.tslot = 3 ∧
          w.sudon.incoming = z.incoming ++ [kept q.tslot] ∧ SameMemory s w))) ∧
    (s.clocked = true → s.halted = false →
      (s.hoMatches part id gen = false → exec (.handoverReserveAnswer ⟨⟨part, id, gen⟩, a⟩) s = .next (s.rcount (.sdCnt 3)).after) ∧
      (s.hoMatches part id gen = true → z.hoStep ≠ .reserving → exec (.handoverReserveAnswer ⟨⟨part, id, gen⟩, a⟩) s = .next s.after) ∧
      (s.hoMatches part id gen = true → z.hoStep = .reserving →
        (∃ w : State, exec (.handoverReserveAnswer ⟨⟨part, id, gen⟩, .refused reason⟩) s = .next w.after ∧ w.sudon.hoStep = .idle ∧
          w.rget .hoStat = BitVec.ofNat 64 (3 + reason * 256) ∧ w.ports = s.ports) ∧
        exec (.handoverReserveAnswer ⟨⟨part, id, gen⟩, .reserved obj⟩) s =
          .next (serveOwn 1 (State.requestOwn { s with sudon := { z with hoStep := .cutoff, hoTObj := obj } } .cutOff)).after)) ∧
    (∀ j, s.clocked = true → s.halted = false → s.hasAddr = true → z.incoming = [j] → j.sender = x.sender → j.partition = x.partition → j.obj = x.obj →
      j.gen = x.gen → j.arrived = false → j.package = none →
      (x.partition = true → ∃ (w : State) (k : Incoming), exec (.handoverTransfer x) s = .next w.after ∧ w.sudon.incoming = [k] ∧ k.arrived = true ∧
        k.obj = x.obj ∧ (s.rget .proofNum).toNat < k.proof) ∧
      (x.partition = false → exec (.handoverTransfer x) s = .next (s.arrivePort j x).after)) ∧
    (s.clocked = true → s.halted = false → s.hasAddr = true →
      (∀ j ∈ z.incoming, j.sender ≠ x.sender ∨ j.partition ≠ x.partition ∨ j.gen ≠ x.gen ∨ j.obj ≠ x.obj ∨ j.arrived = true ∨ j.package ≠ none) →
      exec (.handoverTransfer x) s = .next (s.rcount (.sdCnt 3)).after) ∧
    (s.clocked = true → s.halted = false →
      (z.hoStep = .transferring → s.hoMatches part id gen = true → ∃ w : State, exec (.handoverAck ⟨part, id, gen⟩) s = .next w.after ∧ w.sudon.hoStep = .idle ∧
        w.rfield .hoStat 0 2 = 2 ∧ SameMemory s w ∧ (z.hoPartition = true → w.partState z.hoObj = 0)) ∧
      (z.hoStep ≠ .transferring ∨ s.hoMatches part id gen = false → exec (.handoverAck ⟨part, id, gen⟩) s = .next (s.rcount (.sdCnt 3)).after)) ∧
    (s.clocked = true →
      (z.hoStep = .reserving → ∃ w : State, exec .handoverTimeout s = .next w.after ∧ w.sudon.hoStep = .idle ∧ w.rget .hoStat = 0x103) ∧
      (z.hoStep = .drain → z.hoCsn ≤ s.durable → s.sequencerRuns = false → ∃ w : State, exec .handoverTimeout s = .next w.after ∧
        w.sudon.hoStep = .revert ∧ w.rget .hoStat = 0x403) ∧
      (z.hoStep = .transferring → s.sequencerRuns = false → ∃ w : State, exec .handoverTimeout s = .next w.after ∧
        w.sudon.hoStep = .revert ∧ w.rget .hoStat = 0x603) ∧
      (∀ i l, z.hoStep = .idle → z.incoming = i :: l → exec .handoverTimeout s = .next (s.giveBack i).after) ∧
      (z.hoStep = .idle → z.incoming = [] → exec .handoverTimeout s = .next s.after))

/-- Unit stops, clocks, gates and links. A failed bridge and a lost PLL stop the unit: tiles halted, Sudon links down, PHASE FAILED with REASON 4;
ETHREF's loss takes every MAC link down and its return sets its bit. GATE_SYNC is busy until its completion, which drops the tables from before it
and does nothing where none is busy; an unlocked region takes its attribute fields, LOCK only from a Vault-world tile, and a locked one keeps them.
A MAC that is on and has ETHREF takes its link up, and down; an enabled root port whose domain is on trains and accepts an NVMe drive of version 1.4
or later alone; a port that loses its link reads 0, and on port 0 with the journal open, or an OPEN or FORMAT running, the drain stops. Rests on
R23, R302, R329, R362, R368, R370, R377, R434. -/
def Obligations.ClocksGatesLinks : Prop :=
  ∀ (m : Master) (b : Bool) (g r n : Nat) (x : Word) (speed width : Nat) (cls : BitVec 24) (ver : BitVec 32) (s : State),
    let stopped (u : State) : Prop := u.halted = true ∧ u.rfield .bootStat 0 4 = 15 ∧ u.rfield .bootStat 8 4 = 4 ∧ (∀ l, u.linkUp l = false) ∧ SameMemory s u
    (s.clocked = true → ∃ u, exec (.bridgeFailure b) s = .next u ∧ stopped u) ∧
    (s.powered = true → ∃ u, exec (.pllLockLoss b) s = .next u ∧ stopped u ∧ (u.rget .clkStat).getLsbD 3 = false) ∧
    (s.powered = true → ∃ u, exec .ethrefLoss s = .next u ∧ u.bellows.etherLost = true ∧ (u.rget .clkStat).getLsbD 1 = false ∧
      ∀ k, k < 8 → (u.rget (.macCtrl k)).getLsbD 2 = false) ∧
    (s.powered = true → ∃ u, exec .ethrefRestore s = .next u ∧ u.bellows.etherLost = false ∧ (u.rget .clkStat).getLsbD 1 = true ∧
      ∀ k, u.rget (.macCtrl k) = s.rget (.macCtrl k)) ∧
    (g < 8 → s.reachesReg m (.gateSync g) → ∃ w : State, exec (.gateSync m g) s = .next w.after ∧ w.rfield (.gateStat g) 0 1 = 1 ∧ w.gateOld = s.gateOld) ∧
    (s.powered = true → s.rfield (.gateStat g) 0 1 = 0 → exec (.gateSyncComplete g) s = .next s) ∧
    (s.powered = true → s.rfield (.gateStat g) 0 1 = 1 → ∃ u, exec (.gateSyncComplete g) s = .next u ∧ u.rfield (.gateStat g) 0 1 = 0 ∧
      Map.get [] u.gateOld g = (Map.get [] s.gateOld g).drop (Map.get 0 s.gateMark g)) ∧
    (s.reachesReg m (.gAttr g r) → s.isLocked g r = true → exec (.rattrWrite m g r x) s = .next s.after) ∧
    (s.reachesReg m (.gAttr g r) → s.isLocked g r = false → ∃ w : State, exec (.rattrWrite m g r x) s = .next w.after ∧ SameMemory s w ∧ w.threads = s.threads ∧
      (∀ q ∈ ([(16, 8), (8, 1), (1, 1), (0, 1)] : List (Nat × Nat)), w.rfield (.gAttr g r) q.1 q.2 = bitsOf x q.1 q.2) ∧
      w.rfield (.gAttr g r) 4 2 = (if bitsOf x 4 2 ≤ 2 then bitsOf x 4 2 else s.rfield (.gAttr g r) 4 2) ∧
      w.isLocked g r = (x.getLsbD 63 && s.vaultTile m)) ∧
    (s.clocked = true → n < 8 → s.rfield (.macCtrl n) 0 2 ≠ 0 → s.bellows.etherLost = false → ∃ u, exec (.macLinkUp n) s = .next u ∧
      (u.rget (.macCtrl n)).getLsbD 2 = true ∧ ∀ q : RName, q.addr ≠ (RName.macCtrl n).addr → u.rget q = s.rget q) ∧
    (s.clocked = true → s.rfield (.macCtrl n) 0 2 = 0 ∨ s.bellows.etherLost = true → exec (.macLinkUp n) s = .next s) ∧
    (s.clocked = true → ∃ u, exec (.macLinkDown n) s = .next u ∧ (u.rget (.macCtrl n)).getLsbD 2 = false ∧
      ∀ q : RName, q.addr ≠ (RName.macCtrl n).addr → u.rget q = s.rget q) ∧
    (s.clocked = true → n < 2 → (s.rget (.rpCtrl n)).getLsbD 0 = true → s.power 96 ≠ .off → ∃ u, exec (.rootPortLinkUp n speed width cls ver) s = .next u ∧
      (u.rget (.rpStat n)).getLsbD 0 = true ∧ ((u.rget (.rpStat n)).getLsbD 10 = true ↔ cls = 0x010802 ∧ 0x00010400 ≤ ver.toNat) ∧ SameMemory s u) ∧
    (s.clocked = true → (s.rget (.rpCtrl n)).getLsbD 0 = false ∨ s.power 96 = .off →
      exec (.rootPortLinkUp n speed width cls ver) s = .next s.answerTailRequests) ∧
    (s.clocked = true → (s.rget (.rpStat n)).getLsbD 0 = false → exec (.rootPortLinkDown n) s = .next s.after) ∧
    (s.clocked = true → n = 1 → (s.rget (.rpStat n)).getLsbD 0 = true → ∃ w : State, exec (.rootPortLinkDown n) s = .next w.after ∧ w.rget (.rpStat n) = 0 ∧
      w.etch = s.etch ∧ SameMemory s w) ∧
    (s.clocked = true → n < 2 → (s.rget (.rpStat n)).getLsbD 0 = true → (s.journalOpen = true ∨ s.etchBit 7 = true) → n = 0 →
      ∃ w : State, exec (.rootPortLinkDown n) s = .next w.after ∧ w.rget (.rpStat n) = 0 ∧ w.etch.drainStopped = true ∧ SameMemory s w)

/-- The energy ledger, plans and power domains. A ledger tick puts the pending correction into CORR, adds its energy to the counter, takes it from the
bucket after SUSTAIN, between 0 and RESERVE, and drops the plan that was due. PLAN, with Bellows on, forms a plan that has every tile in use and
starts its counts anew. PMBus readings are shown; a failed command sets its bit and leaves the correction; without a monitor only the estimate
starts anew. The thermal cap lifts where every sensor is 5 degrees below TJ_HOT. VR_SETTLE's end puts the step in effect. An ACTIVE tile that is
idle, not held and without a due vector gates its clock, a tile in RETENTION goes OFF, a crypto engine that is ACTIVE and not held goes to
RETENTION, a waking domain is ACTIVE; each does nothing otherwise. DOMCTL of the root ports switches them OFF and wakes them, DOMCTL 1 wakes a tile.
Rests on R376, R379, R380, R383, R384, R386, R387, R390, R394. -/
def Obligations.BellowsCommands : Prop :=
  ∀ (a : TickInput) (tpp : List Nat) (vin iout pin : BitVec 16) (c : BitVec 8) (r : PmbusReading) (n d : Nat) (m : Master) (x : Word) (s : State),
    let b := s.bellows
    let cool (k : Nat) : Prop := s.temp k < (((s.rget .tjHot).toNat : Int) - 5) * 4
    (s.powered = true →
      (∃ u e, exec (.ledgerTick a) s = .next u ∧ u.rget .corr = b.corrNext ∧ u.bellows.energy = b.energy + e ∧
        u.bellows.bucket = min s.reserveLevel (max 0 (b.bucket + s.sustain - e)) ∧ SameMemory s u ∧ u.bellows.planDue = none) ∧
      (b.thermalCap = true → (∀ k, k < 20 → cool k) → ∃ u, exec .thermalCapLift s = .next u ∧ u.bellows.thermalCap = false ∧ SameMemory s u) ∧
      (∀ k, b.thermalCap = false ∨ k < 20 ∧ ¬ cool k → exec .thermalCapLift s = .next s) ∧
      (s.bwOn = false → exec (.plan tpp) s = .next s) ∧
      (s.bwOn = true → ∃ u step parked tiles, exec (.plan tpp) s = .next u ∧ u.bellows.planDue = some (step, parked, tiles) ∧ u.bellows.committed = [] ∧
        u.bellows.msOther = 0 ∧ (∀ k, k < 64 → s.tileEmpty k = false → tiles.getLsbD k = true) ∧ u.rget .planTiles = s.rget .planTiles ∧ SameMemory s u) ∧
      ((s.rget .pmbCfg).getLsbD 15 = false → exec (.pmbusCorrection r) s = .next { s with bellows := { b with msEstimate := 0 } }) ∧
      ((s.rget .pmbCfg).getLsbD 15 = true →
        (∃ u, exec (.pmbusCorrection (.failed c)) s = .next u ∧ (u.rget .bwStat).getLsbD 2 = true ∧ u.bellows.msEstimate = 0 ∧ u.bellows.corrNext = b.corrNext) ∧
        (∃ u, exec (.pmbusCorrection (.ok vin iout pin)) s = .next u ∧ u.bellows.msEstimate = 0 ∧
          u.rget .pmbRead = BitVec.ofNat 64 (vin.toNat * 2 ^ 32 + iout.toNat * 2 ^ 16 + pin.toNat) ∧ SameMemory s u)) ∧
      (∀ step, b.settling = some step → ∃ u, exec .vrSettleExpiry s = .next u ∧ u.stepNow = step % 4 ∧ u.bellows.settling = none ∧
        ∀ q : RName, q.addr ≠ RName.plan.addr → u.rget q = s.rget q) ∧
      (b.settling = none → exec .vrSettleExpiry s = .next s)) ∧
    (s.clocked = true →
      (s.power n = .active → s.tileBusy n = false → s.force n ≠ 1 → (∀ k, k < 8 → s.dueVectors (BitVec.ofNat 9 (8 * n + k)) = []) →
        ∃ u, exec (.clockGate n) s = .next u ∧ u.power n = .gated ∧ ∀ k, k ≠ n → u.power k = s.power k) ∧
      (∀ k, s.power n ≠ .active ∨ s.tileBusy n = true ∨ s.force n = 1 ∨ k < 8 ∧ s.dueVectors (BitVec.ofNat 9 (8 * n + k)) ≠ [] →
        exec (.clockGate n) s = .next s) ∧
      (n < 64 → s.power n = .retention → ∃ u, exec (.retentionOffExpiry n) s = .next u ∧ u.power n = .off ∧
        ∀ k, k ≠ n → k ≠ 64 + n / 4 → u.power k = s.power k) ∧
      (s.power n ≠ .retention → exec (.retentionOffExpiry n) s = .next s) ∧
      (s.power (97 + n) = .active → s.force (97 + n) ≠ 1 → ∃ u, exec (.cryptoRetention n) s = .next u ∧ u.power (97 + n) = .retention ∧
        ∀ k, k ≠ 97 + n → u.power k = s.power k) ∧
      (s.power (97 + n) ≠ .active ∨ s.force (97 + n) = 1 → exec (.cryptoRetention n) s = .next s) ∧
      (s.power d = .waking → ∃ w : State, exec (.domainWakeComplete d) s = .next w.after ∧ w.power d = .active ∧ ∀ k, k ≠ d → w.power k = s.power k) ∧
      (s.power d ≠ .waking → exec (.domainWakeComplete d) s = .next s.after)) ∧
    (s.reachesReg m (.domctl d) → exec (.domctlWrite m d x) s = .next (s.regWrite m (.domctl d) x).after ∧
      (d < 64 → bitsOf x 0 2 = 1 → s.power d = .retention ∨ s.power d = .off → (s.regWrite m (.domctl d) x).power d = .waking)) ∧
    (s.reachesReg m (.domctl 96) → bitsOf x 0 2 ≤ 2 → ∃ w : State, exec (.domctlWrite m 96 x) s = .next w.after ∧ w.rfield (.domctl 96) 0 2 = bitsOf x 0 2 ∧
      (bitsOf x 0 2 = 2 → w.power 96 = .off) ∧ (bitsOf x 0 2 ≠ 2 → s.power 96 = .off → w.power 96 = .waking))

/-- The calibration store, the recorder and VDBG_AUTH. CAL_KEY of a Vault supervisor opens the store in two steps within 1 ms, any other value closes
it; CAL_CMD 1 starts a rewrite of an open store with erases left and a staging page whose CRC holds, and is refused otherwise, while a rewrite goes
on it does nothing. A rewrite that verifies makes the staging page the page, one that fails is flagged; both count an erase. From outside VS the
store keeps what it holds. Each queued event becomes one record of 32 bytes in the next slot; the rate window starts anew; a write of REC_CURSOR
takes a snapshot, and the read that returns byte 31 steps it, from 1023 to 128. VDBG_AUTH changes only for a Vault supervisor. Rests on R396, R400,
R401, R405, R406, R409, R414. -/
def Obligations.StoreAndRecorder : Prop :=
  ∀ (m : Master) (x : Word) (wide b : Bool) (e : Event) (q : List Event) (s : State),
    let c := s.cal
    (s.reachesReg m .calKey → s.isVs m = true →
      (∃ w : State, exec (.calKeyWrite m 0x0CA1) s = .next w.after ∧ w.cal.keys = 1 ∧ w.cal.keyAt = s.timeNow) ∧
      (c.keys = 1 → s.timeNow ≤ c.keyAt + 100000 → ∃ w : State, exec (.calKeyWrite m 0x05E7) s = .next w.after ∧ w.cal.keys = 2) ∧
      (c.keys ≠ 1 ∨ c.keyAt + 100000 < s.timeNow → ∃ w : State, exec (.calKeyWrite m 0x05E7) s = .next w.after ∧ w.cal.keys = 0) ∧
      (x ≠ 0x0CA1 → x ≠ 0x05E7 → ∃ w : State, exec (.calKeyWrite m x) s = .next w.after ∧ w.cal.keys = 0)) ∧
    (s.reachesReg m .calKey → s.isVs m = false → ∃ w : State, exec (.calKeyWrite m x) s = .next w.after ∧ w.cal = c) ∧
    (s.reachesReg m .calCmd → s.isVs m = false → ∃ w : State, exec (.calCmdWrite m x) s = .next w.after ∧ w.cal = c) ∧
    (s.reachesReg m .calCmd → s.isVs m = true → x ≠ 1 ∨ c.busy = true → exec (.calCmdWrite m x) s = .next s.after) ∧
    (s.reachesReg m .calCmd → s.isVs m = true → c.busy = false →
      (c.keys = 2 → c.erases < 1000 → pageCrc c.staging = storedCrc c.staging →
        ∃ w : State, exec (.calCmdWrite m 1) s = .next w.after ∧ w.cal.busy = true ∧ w.cal.keys = 0 ∧ w.cal.page = c.page) ∧
      (c.keys ≠ 2 ∨ 1000 ≤ c.erases ∨ pageCrc c.staging ≠ storedCrc c.staging →
        ∃ w : State, exec (.calCmdWrite m 1) s = .next w.after ∧ w.cal.busy = false ∧ w.cal.keys = 0 ∧ w.cal.page = c.page)) ∧
    (s.powered = true → c.busy = true → ∃ u, exec (.calRewriteComplete true) s = .next u ∧ u.cal.page = c.staging ∧ u.cal.erases = c.erases + 1 ∧
      u.cal.busy = false ∧ u.cal.defaults = false) ∧
    (s.powered = true → c.busy = true → ∃ u, exec (.calRewriteComplete false) s = .next u ∧ u.cal.failed = true ∧ u.cal.erases = c.erases + 1 ∧ u.cal.busy = false) ∧
    (s.powered = true → c.busy = false → exec (.calRewriteComplete b) s = .next s) ∧
    (s.recorder.queue = e :: q → ∃ u, exec .eventRecordWrite s = .next u ∧ u.recorder.count = s.recorder.count + 1 ∧ u.recorder.queue = q ∧ SameMemory s u ∧
      Map.find u.recorder.slots (slotOf s.recorder.count) =
        some (eventRecord s.recorder.count e (Map.get 0 s.recorder.suppressed e.code.toNat))) ∧
    (s.recorder.queue = [] → exec .eventRecordWrite s = .next s) ∧
    exec .rateWindowStart s = .next { s with recorder := { s.recorder with admitted := [] } } ∧
    (s.reachesReg m .recCursor → ∃ w : State, exec (.recCursorWrite m x) s = .next w.after ∧ w.rfield .recCursor 0 10 = x.toNat % 1024 ∧
      w.recorder.snapshot = sliceBytes (Map.get [] s.recorder.slots (x.toNat % 1024)) 0 32 ∧ w.recorder.slots = s.recorder.slots) ∧
    (
      let a := (RName.recWindow 3).addr + (if wide then 0 else 4)
      s.powered = true → exec (.recWindowRead m wide) s = .next (s.busRead m a (if wide then 8 else 4)).1 ∧
      (s.gateAccess m a true false none = (s, .allow) → s.refusal m a false = none → s.heldByOther none (a / 64) = false →
        ∃ u, exec (.recWindowRead m wide) s = .next u ∧
        let k := s.rfield .recCursor 0 10
        let k' : Nat := if k = 1023 then 128 else k + 1
        u.rfield .recCursor 0 10 = k' ∧ u.recorder.snapshot = sliceBytes (Map.get [] s.recorder.slots k') 0 32)) ∧
    (s.reachesReg m .vdbgAuth → s.isVs m = true → ∃ w : State, exec (.vdbgAuthWrite m x) s = .next w.after ∧ (w.rget .vdbgAuth).getLsbD 0 = x.getLsbD 0) ∧
    (s.reachesReg m .vdbgAuth → s.isVs m = false → ∃ w : State, exec (.vdbgAuthWrite m x) s = .next w.after ∧ w.rget .vdbgAuth = s.rget .vdbgAuth)

/-- The TAP and the debug module. Each TAP instruction selects its register. A DBGXFER while the one before is in progress answers STATUS 1 and does
nothing; a memory access at an unaligned address answers 2, one that a unit or gate refuses 2, one that meets a held line waits with 1, another 0
with the bytes read; THR_SEL and THR_STATE read what they hold, THR_SEL is written. Stop makes a READY thread without a plate STOPPED, resume and
step a STOPPED one run again, all with STATUS 0 and nothing else changed for threads; a thread closed to debug answers 3 and is left alone. A write
of THR_REG_DATA replaces the half that THR_REG_SEL selects of a register of a STOPPED thread and clears its tag, in cursor mode moves its cursor,
for g0 is discarded, and for a thread that is not STOPPED answers 4. Rests on R410, R411, R412, R413, R414. -/
def Obligations.DebugCommands : Prop :=
  ∀ (addr data : Word) (s s₁ : State) (d : List Byte),
    let x := s.selectXfer
    let t := s.dbg.thrSel
    let a := bitsOf addr 0 46
    let answered (u : State) (st : Nat) : Prop := u.dbg.ir = .dbgxfer ∧ u.dbg.status = st
    let free : Prop := s.powered = true ∧ s.dbgBusy = false
    let sel := s.dbg.regSel
    let half : Nat := if sel.getLsbD 6 then 64 else 0
    let others (u : State) : Prop := ∀ y, y ≠ t → u.thr y = s.thr y
    (∃ u, exec .tapReset s = .next u ∧ u.dbg.ir = .idcode ∧ u.threads = s.threads ∧ SameMemory s u) ∧
    (s.powered = true → ∀ c ∈ ([(.extest, .extest), (.samplePreload, .samplePreload), (.idcode, .idcode), (.bypass, .bypass), (.dbgxferNop, .dbgxfer)] : List (Instr × TapIr)),
      ∃ u, exec c.1 s = .next u ∧ u.dbg.ir = c.2 ∧ u.threads = s.threads ∧ SameMemory s u) ∧
    (s.powered = true → s.dbgBusy = true →
      (∀ c ∈ ([.dbgxferMemRead addr, .dbgxferRegRead addr, .threadResume, .threadStep, .thrRegDataWrite data] : List Instr), exec c s = .next (x.dbgAnswer 1 0)) ∧
      (∀ c ∈ ([.dbgxferMemWrite addr data, .dbgxferRegWrite addr data, .threadStop] : List Instr), exec c s = .next (x.dbgAnswer 1 0).after)) ∧
    (free → a % 8 ≠ 0 → exec (.dbgxferMemRead addr) s = .next (x.dbgAnswer 2 0) ∧ exec (.dbgxferMemWrite addr data) s = .next (x.dbgAnswer 2 0).after) ∧
    (free → a % 8 = 0 →
      (x.busRead .debug a 8 = (s₁, .ok, d) → exec (.dbgxferMemRead addr) s = .next (s₁.dbgAnswer 0 (BitVec.ofNat 64 (leValue d)))) ∧
      (x.busRead .debug a 8 = (s₁, .error, d) → exec (.dbgxferMemRead addr) s = .next (s₁.dbgAnswer 2 0)) ∧
      (x.busRead .debug a 8 = (s₁, .wait, d) → exec (.dbgxferMemRead addr) s =
        .next (({ x with busWaits := x.busWaits ++ [{ host := false, addr := a, len := 8, data := none }] } : State).dbgAnswer 1 0)) ∧
      (x.busWrite .debug a (leBytes 8 data.toNat) = (s₁, .ok) → exec (.dbgxferMemWrite addr data) s = .next (s₁.performPosted.dbgAnswer 0 0).after) ∧
      (x.busWrite .debug a (leBytes 8 data.toNat) = (s₁, .error) → exec (.dbgxferMemWrite addr data) s = .next (s₁.performPosted.dbgAnswer 2 0).after) ∧
      (x.busWrite .debug a (leBytes 8 data.toNat) = (s₁, .wait) → exec (.dbgxferMemWrite addr data) s =
        .next (({ x with busWaits := x.busWaits ++ [{ host := false, addr := a, len := 8, data := some (leBytes 8 data.toNat) }] } : State).dbgAnswer 1 0).after)) ∧
    (free → exec (.dbgxferRegRead addr) s = .next (x.dbgRegRead (addr.toNat % 256)) ∧
      exec (.dbgxferRegWrite addr data) s = .next (x.dbgRegWrite (addr.toNat % 256) data).after) ∧
    (free → ∃ u, exec (.dbgxferRegRead 8) s = .next u ∧ answered u 0 ∧ u.dbg.data = t.setWidth 64 ∧ u.threads = s.threads) ∧
    (free → ∃ u, exec (.dbgxferRegRead 0x18) s = .next u ∧ answered u 0 ∧ u.dbg.data = (s.thr t).stateWord ∧ u.threads = s.threads) ∧
    (free → ∃ w : State, exec (.dbgxferRegWrite 8 data) s = .next w.after ∧ answered w 0 ∧ w.dbg.thrSel = data.setWidth 9 ∧ w.threads = s.threads) ∧
    (free → s.dbgClosed = true →
      (∃ w : State, exec .threadStop s = .next w.after ∧ answered w 3 ∧ w.threads = s.threads) ∧
      (∀ c ∈ ([.threadResume, .threadStep, .thrRegDataWrite data] : List Instr), ∃ u, exec c s = .next u ∧ answered u 3 ∧ u.threads = s.threads)) ∧
    (free → s.dbgClosed = false →
      ((s.thr t).st = .ready → (s.thr t).resume = false → (s.plate t).phase = .none → ∃ w : State, exec .threadStop s = .next w.after ∧ answered w 0 ∧
        w.thr t = { (s.thr t) with st := .stopped, stopReq := false, stepping := false } ∧ SameMemory s w ∧ others w) ∧
      ((s.thr t).st = .empty ∨ (s.thr t).st = .stopped → ∃ w : State, exec .threadStop s = .next w.after ∧ answered w 0 ∧ w.threads = s.threads) ∧
      ((s.thr t).st ≠ .stopped → ∀ c ∈ ([.threadResume, .threadStep] : List Instr), ∃ u, exec c s = .next u ∧ answered u 0 ∧ u.threads = s.threads) ∧
      ((s.thr t).st = .stopped → exec .threadResume s = .next ((x.runAgain t).dbgAnswer 0 0)) ∧
      ((s.thr t).st = .stopped → (s.thr t).entry = none → ∃ u, exec .threadResume s = .next u ∧ answered u 0 ∧
        u.thr t = { (s.thr t) with st := .ready } ∧ others u) ∧
      ((s.thr t).st = .stopped → (s.thr t).entry = none → ∃ u, exec .threadStep s = .next u ∧ answered u 0 ∧ (u.thr t).stepping = true ∧
        (u.thr t).st ≠ .stopped ∧ (u.thr t).regs = (s.thr t).regs ∧ (u.thr t).pcc = (s.thr t).pcc ∧ others u) ∧
      ((s.thr t).st ≠ .stopped → ∃ u, exec (.thrRegDataWrite data) s = .next u ∧ answered u 4 ∧ u.threads = s.threads) ∧
      ((s.thr t).st = .stopped → (sel.getLsbD 7 = false ∨ sel.getLsbD 6 = true →
        (∀ k : Reg, k ≠ 0 → sel.toNat % 64 = k.toNat → ∃ u, exec (.thrRegDataWrite data) s = .next u ∧ answered u 0 ∧
          (u.thr t).reg k = ⟨withField ((s.thr t).reg k).bits half 64 data.toNat, false⟩ ∧ (∀ r, r ≠ k → (u.thr t).reg r = (s.thr t).reg r) ∧ others u) ∧
        (sel.toNat % 64 = 32 → ∃ u, exec (.thrRegDataWrite data) s = .next u ∧ answered u 0 ∧
          (u.thr t).pcc = ⟨withField (s.thr t).pcc.bits half 64 data.toNat, false⟩ ∧ (u.thr t).regs = (s.thr t).regs ∧ others u)) ∧
        (sel.getLsbD 7 = true → sel.getLsbD 6 = false → ∀ k : Reg, k ≠ 0 → sel.toNat % 64 = k.toNat → ∃ u, exec (.thrRegDataWrite data) s = .next u ∧
          answered u 0 ∧ (u.thr t).reg k = ((s.thr t).reg k).moveCursor (bitsOf data 0 54) ∧ (∀ r, r ≠ k → (u.thr t).reg r = (s.thr t).reg r) ∧ others u) ∧
        (sel.toNat % 64 = 0 → ∃ u, exec (.thrRegDataWrite data) s = .next u ∧ answered u 0 ∧ (∀ r, (u.thr t).reg r = (s.thr t).reg r) ∧ others u)))

/-- Resets and boot. A cold reset takes the straps, empties every thread, zeroes DRAM with tag 0 and colour 15, keeps the recorder's slots and starts
boot in phase 1; a warm reset keeps memory, waits for a drain, is cold before training, and is nothing under PORST_N or THERMTRIP. PORST_N and a
lost rail hold the unit; losing VDD_AON loses the recorder, and its return queues record 0x0100. The endpoint's training takes its link up; a Sudon
link trains, asks a neighbour with an address for its own, or at the anchor starts the token. DDR5 training sets capacities and starts the image
load that BOOTSRC selects, or fails; initialisation ends once. An image that passes gives the entry address; a copy that fails gives way to the
other, then to the host, or boot fails; a denied write stops boot. Rests on R22, R59, R65, R339, R341, R399, R400, R408, R417, R421, R425, R427. -/
def Obligations.ResetsAndBoot : Prop :=
  ∀ (st : Straps) (tr : Trained) (l : Link) (lanes cap_ : Nat) (u₀ : UnitAddr) (chs : List ChannelResult) (h body : List Byte) (aon : Bool) (s s₁ : State),
    let emptied (u : State) : Prop := ∀ t : Tid, (u.thr t).st = .empty ∧ ∀ r, (u.thr t).reg r = Cap.null
    let phase (u : State) : Nat := u.rfield .bootStat 0 4
    let starts : Nat := if s.straps.bootsrc = 3 then 15 else if s.straps.bootsrc = 1 then 4 else 3
    let next (w u : State) : Prop :=
      (w.rfield .bootStat 16 1 = 0 → phase u = 3 ∧ u.rfield .bootStat 16 1 = 1) ∧
      (w.rfield .bootStat 16 1 = 1 → w.straps.bootsrc = 2 → phase u = 4) ∧
      (w.rfield .bootStat 16 1 = 1 → w.straps.bootsrc ≠ 2 → phase u = 15 ∧ u.rfield .bootStat 8 4 = 3) ∧
      u.boot.step5 = w.boot.step5 ∧ SameMemory w u
    (s.boot.porst = true → ∃ u, exec (.coldReset st) s = .next u ∧ u.powered = true ∧ emptied u ∧ u.straps = st ∧ phase u = 1 ∧
      (∀ a, u.byteAt a = 0) ∧ (∀ g, (u.granuleAt g).tag = false ∧ (u.granuleAt g).colour = 15) ∧ (u.rget .resetCause).getLsbD 1 = true ∧
      u.recorder.slots = s.recorder.slots ∧ u.boot.released = false) ∧
    (s.boot.porst = false → exec (.coldReset st) s = .next s) ∧
    (s.boot.porst = false → s.thermTrip = false → s.boot.ddrTrained = true → s.etch.draining = false → ∃ u, exec .warmReset s = .next u ∧ emptied u ∧
      SameMemory s u ∧ phase u = 1 ∧ (u.rget .resetCause).getLsbD 2 = true ∧ u.recorder.slots = s.recorder.slots ∧ u.boot.ddrTrained = true) ∧
    (s.boot.porst = false → s.thermTrip = false → s.boot.ddrTrained = true → s.etch.draining = true →
      exec .warmReset s = .next { s with etch := { s.etch with warmPending := true } }) ∧
    (s.boot.porst = false → s.thermTrip = false → s.boot.ddrTrained = false →
      exec .warmReset s = exec (.coldReset s.straps) { s with boot := { s.boot with porst := true } }) ∧
    (s.boot.porst = true ∨ s.thermTrip = true → exec .warmReset s = .next s) ∧
    (∀ c ∈ ([.porstNAssert, .railLoss aon] : List Instr), ∃ u, exec c s = .next u ∧ u.powered = false ∧ u.halted = true ∧ SameMemory s u) ∧
    (∃ u, exec (.railLoss aon) s = .next u ∧ u.recorder = if aon then Recorder.reset else s.recorder) ∧
    (∃ u, exec .vddAonPowerUp s = .next u ∧ u.recorder.slots = [] ∧ u.recorder.count = 0 ∧ (u.rget .resetCause).getLsbD 0 = true ∧
      (u.recorder.queue.map (·.code)) = [0x0100]) ∧
    (s.powered = true → exec (.linkTrainingComplete tr) s = .next (s.trained tr).after ∧
      (s.trained .endpoint).boot.epLinkUp = true ∧ SameMemory s (s.trained .endpoint)) ∧
    (s.halted = false → (s.rget .sdCtrl).getLsbD 0 = true → s.linkUp l = false → lanesUsed (linkLanes l) lanes ≠ 0 →
      (s.straps.anchor = false → (s.trained (.sudon l lanes none)).linkUp l = true ∧ (s.trained (.sudon l lanes none)).boot.linksUp = true ∧
        SameMemory s (s.trained (.sudon l lanes none))) ∧
      (s.straps.anchor = true → s.hasAddr = false → l = .east → s.sudon.eastSent = false → s.sudon.enumDone = false → (s.rget .sdAddrOvr).getLsbD 15 = false →
        (s.trained (.sudon l lanes none)).hasAddr = true ∧ (s.trained (.sudon l lanes none)).unitAddr = addrOf s.straps.ring 0 ∧
        (s.trained (.sudon l lanes none)).out.getLast? =
          some (.token { own := true, east := true, ring := s.straps.ring, position := 0, order := [0] })) ∧
      (s.hasAddr = false → l = .west → (s.trained (.sudon l lanes (some u₀))).out.getLast? = some (.addressRequest l))) ∧
    (s.powered = true → phase s ≠ 1 → exec (.ddr5TrainingComplete chs) s = .next s) ∧
    (s.powered = true → phase s = 1 → s.boot.ddrTrained = true → ∃ u, exec (.ddr5TrainingComplete chs) s = .next u ∧ u.boot.step4 = true ∧
      u.channels = s.channels ∧ phase u = starts) ∧
    (s.powered = true → phase s = 1 → s.boot.ddrTrained = false → s.channels = [] → 0 < cap_ → ∃ u, exec (.ddr5TrainingComplete [.usable cap_]) s = .next u ∧
      u.boot.step4 = true ∧ u.boot.ddrTrained = true ∧ u.installed = cap_ ∧ phase u = starts) ∧
    (s.powered = true → phase s = 1 → s.boot.ddrTrained = false → s.channels = [] → ∃ u, exec (.ddr5TrainingComplete [.failed 1]) s = .next u ∧
      phase u = 15 ∧ u.rfield .bootStat 8 4 = 2 ∧ u.boot.step4 = s.boot.step4) ∧
    (s.powered = true → s.boot.step4 = true → ∃ u, exec .dramInitComplete s = .next u ∧ (u.rget .bootStat).getLsbD 18 = true ∧ SameMemory s u) ∧
    (s.powered = true → s.boot.step4 = false → exec .dramInitComplete s = .next s) ∧
    (s.powered = true → phase s ≠ 3 → exec (.imageReadComplete h body) s = .next s) ∧
    (s.powered = true → phase s = 3 → s.headerCheck h = none → s.loadBody h body = (s₁, true) → s₁.signatureCheck h body = none →
      ∃ u, exec (.imageReadComplete h body) s = .next u ∧ u.boot.step5 = true ∧
      u.boot.entryAddr = BitVec.ofNat 54 (leValue (sliceBytes h 16 8) + leValue (sliceBytes h 24 8)) ∧
      u.rget .fwVer = BitVec.ofNat 64 (leValue (sliceBytes h 0x20 8))) ∧
    (∀ c, s.powered = true → phase s = 3 → s.headerCheck h = some c → ∃ u, exec (.imageReadComplete h body) s = .next u ∧ next s u) ∧
    (∀ c, s.powered = true → phase s = 3 → s.headerCheck h = none → s.loadBody h body = (s₁, true) → s₁.signatureCheck h body = some c →
      ∃ u, exec (.imageReadComplete h body) s = .next u ∧ next s₁ u) ∧
    (s.powered = true → phase s = 3 → s.headerCheck h = none → s.loadBody h body = (s₁, false) → exec (.imageReadComplete h body) s = .next s₁)

/-- Host requests, doorbells and register writes. A host read is completed with its bytes, or with Completer Abort where a unit or gate refuses it or
through BAR2 before DRAM is usable; it waits where it meets a held line, and behind a write that waits. A host write is performed, through BAR2
dropped before DRAM is usable and aborted while a host image is taken. Without its link neither does anything. A ring of MB_H2U_DB sets it, and acts
as an image or a vector; the unit's ring sets MB_U2H_DB, the host's write clears it; HOST_IRQ of a vector from 8 sends it or leaves it pending;
EP_PERST clears the endpoint. A register write reaches its register alone: each field of the named ones takes its new value where that is legal,
every other bit and register keeps its own, and a locked one keeps all. Rests on R10, R11, R12, R233, R366, R427, R428, R431, R432, R433, R451. -/
def Obligations.HostAndRegisters : Prop :=
  ∀ (m : Master) (r : RName) (x : Word) (bar2 : Bool) (off n a : Nat) (d y : List Byte) (s s₁ : State),
    let b := s.barAddr bar2 off
    let s₀ := s.active 95 1 0
    let s₂ := s.active 95 1 (blocks64 d.length)
    (s.reachesReg .host .mbH2uDb → exec .mbH2uDoorbell s = .next s.ringH2u.after ∧
      (s.rfield .bootStat 0 4 ≠ 4 → s.ringH2u.rget .mbH2uDb = 1 ∧ SameMemory s s.ringH2u)) ∧
    (s.reachesReg m .mbU2hDb → m ≠ .host → ∃ w : State, exec (.mbU2hDoorbell m) s = .next w.after ∧ w.rget .mbU2hDb = 1 ∧ SameMemory s w ∧ w.threads = s.threads) ∧
    (s.reachesReg .host .mbU2hDb → ∃ w : State, exec (.mbU2hDoorbell .host) s = .next w.after ∧ w.rget .mbU2hDb = 0 ∧ SameMemory s w ∧ w.threads = s.threads) ∧
    (s.reachesReg m .hostIrq → 8 ≤ x.toNat % 2048 → ∃ w : State, exec (.hostIrqWrite m x) s = .next w.after ∧
      (if s.msixHeld (x.toNat % 2048) then x.toNat % 2048 ∈ w.msix.pending ∧ w.out = s.out else w.out = s.out ++ [.msix (x.toNat % 2048)])) ∧
    (s.reachesReg m .hostIrq → x.toNat % 2048 < 8 → exec (.hostIrqWrite m x) s = .next s.after) ∧
    (s.powered = true → s.boot.epLinkUp = false → exec (.hostRead bar2 off n) s = .next s ∧ exec (.hostWrite bar2 off d) s = .next s.after) ∧
    (s.powered = true → s.boot.epLinkUp = true → s.boot.step4 = false →
      exec (.hostRead true off n) s = .next { s₀ with out := s₀.out ++ [.hostCompletion none] } ∧ exec (.hostWrite true off d) s = .next s₂.after) ∧
    (s.powered = true → s.boot.epLinkUp = true → s.boot.step4 = true → s.boot.hostLocked = true →
      exec (.hostWrite true off d) s = .next ({ s₂ with out := s₂.out ++ [.completerAbort] } : State).after) ∧
    (s.powered = true → s.boot.epLinkUp = true → bar2 = false ∨ s.boot.step4 = true → s.busWaits.any (fun w => w.host && w.data.isSome) = false →
      (s₀.busRead .host b n = (s₁, .ok, y) → exec (.hostRead bar2 off n) s = .next { s₁ with out := s₁.out ++ [.hostCompletion (some y)] }) ∧
      (s₀.busRead .host b n = (s₁, .error, y) → exec (.hostRead bar2 off n) s = .next { s₁ with out := s₁.out ++ [.hostCompletion none] }) ∧
      (s₀.busRead .host b n = (s₁, .wait, y) → exec (.hostRead bar2 off n) s =
        .next { s₀ with busWaits := s₀.busWaits ++ [{ host := true, addr := b, len := n, data := none }] })) ∧
    (s.powered = true → s.boot.epLinkUp = true → bar2 = false ∨ s.boot.step4 = true → s.busWaits.any (fun w => w.host && w.data.isSome) = true →
      exec (.hostRead bar2 off n) s = .next { s₀ with busWaits := s₀.busWaits ++ [{ host := true, addr := b, len := n, data := none }] }) ∧
    (s.powered = true → s.boot.epLinkUp = true → bar2 = false ∨ s.boot.step4 = true ∧ s.boot.hostLocked = false →
      s.busWaits.any (fun w => w.host && w.data.isSome) = false →
      (s₂.busWrite .host b d = (s₁, .ok) → exec (.hostWrite bar2 off d) s = .next s₁.performPosted.after) ∧
      (s₂.busWrite .host b d = (s₁, .error) → exec (.hostWrite bar2 off d) s =
        .next ({ s₁.performPosted with out := s₁.performPosted.out ++ [.completerAbort] } : State).after)) ∧
    (∃ u, exec .epPerst s = .next u ∧ u.boot.epLinkUp = false ∧ u.msix = { enable := false, functionMask := false, pending := [] } ∧
      (∀ k, k < 4096 → u.rget (.msixTable k) = 0) ∧ SameMemory s u) ∧
    (s.powered = true → mmioBase ≤ a → a < mmioBase + 0x4000000 →
      exec (.registerWrite m a n x) s = .next ((s.masterWrite m a (leBytes n x.toNat)).1).after) ∧
    (s.powered = true → a < mmioBase ∨ mmioBase + 0x4000000 ≤ a → exec (.registerWrite m a n x) s = .next s) ∧
    (s.reachesReg m r → exec (.registerWrite m r.addr 8 x) s = .next (s.regWrite m r x).after) ∧
    (∀ q ∈ ([.mbH2u 0, .mbU2h 7, .mbH2uVec, .bwCtrl, .planPin, .classmap, .tjHot, .pmbCfg, .recVec, .sdAddrOvr, .sdVec 3, .takeBase, .takeSize, .hoDesc 0,
        .macAddr 0, .macMtu 7, .rawBase true 0, .ksel, .peCtrl, .unitId, .bootStat, .durableCsn, .jpos] : List RName),
      s.reachesReg m q → ∃ w : State, exec (.registerWrite m q.addr 8 x) s = .next w.after ∧ w.rget q = fieldWrite (s.rget q) x (q.fields s.i20) ∧
        (∀ z : RName, z.addr ≠ q.addr → w.rget z = s.rget z) ∧ SameMemory s w ∧ w.threads = s.threads) ∧
    (∀ q ∈ ([.durBase, .durSize, .jringLba, .jringBlocks, .imgLba, .spillLba, .fmtid] : List RName), s.reachesReg m q → s.etch.locked = true →
      exec (.registerWrite m q.addr 8 x) s = .next s.after)
end

