-- ==== Sys2Proof/Laws/Map.lean ====
section
/-! SUPPORT. The laws of sparse maps: reading after a write, and the canonical form that every write keeps. -/

namespace Sys2Proof.Machine.Map

variable {α : Type}

theorem find_cons (i : Nat) (w : α) (r : List (Nat × α)) (j : Nat) : find ((i, w) :: r) j = if j = i then some w else find r j := by
  by_cases h : j = i
  · subst h; simp [find]
  · simp [find, h, Ne.symm h]

theorem find_set (m : List (Nat × α)) (k : Nat) (v : α) (j : Nat) : find (set m k v) j = if j = k then some v else find m j := by
  induction m with
  | nil => simp only [set, find_cons]
  | cons p r ih =>
    obtain ⟨i, w⟩ := p
    simp only [set]
    split
    · rw [find_cons]
    · split
      · rename_i h; subst h; simp only [find_cons]; split <;> simp_all
      · simp only [find_cons, ih]; split
        · rename_i h h'; subst h'; rw [if_neg h]
        · rfl

theorem find_erase (m : List (Nat × α)) (k j : Nat) : find (erase m k) j = if j = k then none else find m j := by
  induction m with
  | nil => simp [erase, find]
  | cons p r ih =>
    obtain ⟨i, w⟩ := p
    simp only [erase] at ih
    by_cases h : i = k
    · subst h; simp only [erase, List.filter, ne_eq, not_true, decide_false, ih, find_cons]; split <;> rfl
    · simp only [erase, List.filter, ne_eq, h, not_false_eq_true, decide_true, find_cons, ih]
      split
      · rename_i h'; subst h'; rw [if_neg h]
      · rfl

@[simp] theorem get_set (d : α) (m : List (Nat × α)) (k : Nat) (v : α) (j : Nat) :
    get d (set m k v) j = if j = k then v else get d m j := by
  simp only [get, find_set]; split <;> rfl

@[simp] theorem get_put [DecidableEq α] (d : α) (m : List (Nat × α)) (k : Nat) (v : α) (j : Nat) :
    get d (put d m k v) j = if j = k then v else get d m j := by
  unfold put
  split
  · rename_i h; subst h; simp only [get, find_erase]; split <;> rfl
  · exact get_set d m k v j

@[simp] theorem get_nil (d : α) (j : Nat) : get d [] j = d := rfl

/-! ### The canonical form -/

/-- Every key of the map is at least k. -/
theorem sorted_cons (i : Nat) (w : α) (r : List (Nat × α)) :
    sorted ((i, w) :: r) = true ↔ (∀ p ∈ r, i < p.1) ∧ sorted r = true := by
  induction r generalizing i w with
  | nil => simp [sorted]
  | cons p r ih =>
    obtain ⟨j, x⟩ := p
    simp only [sorted, Bool.and_eq_true, decide_eq_true_eq, List.mem_cons, forall_eq_or_imp]
    constructor
    · rintro ⟨h, hs⟩; exact ⟨⟨h, fun p hp => Nat.lt_trans h (((ih j x).1 hs).1 p hp)⟩, hs⟩
    · rintro ⟨⟨h, _⟩, hs⟩; exact ⟨h, hs⟩

theorem mem_set (m : List (Nat × α)) (k : Nat) (v : α) (p : Nat × α) (h : p ∈ set m k v) : p = (k, v) ∨ p ∈ m := by
  induction m with
  | nil => simpa [set] using h
  | cons q r ih =>
    obtain ⟨i, w⟩ := q
    simp only [set] at h
    split at h
    · simpa using h
    · split at h <;> simp only [List.mem_cons] at h ⊢
      · rcases h with h | h <;> simp [h]
      · rcases h with h | h
        · simp [h]
        · rcases ih h with h | h <;> simp [h]

theorem sorted_set (m : List (Nat × α)) (k : Nat) (v : α) (h : sorted m = true) : sorted (set m k v) = true := by
  induction m with
  | nil => rfl
  | cons q r ih =>
    obtain ⟨i, w⟩ := q
    have hq := (sorted_cons i w r).1 h
    simp only [set]
    split
    · rename_i hk; exact (sorted_cons _ _ _).2 ⟨by
      intro p hp
      rcases List.mem_cons.1 hp with rfl | hp
      · exact hk
      · exact Nat.lt_trans hk (hq.1 p hp), h⟩
    · split
      · rename_i hk; subst hk; exact (sorted_cons _ _ _).2 hq
      · refine (sorted_cons _ _ _).2 ⟨fun p hp => ?_, ih hq.2⟩
        rcases mem_set r k v p hp with rfl | hp
        · show i < k; omega
        · exact hq.1 p hp

theorem sorted_filter (m : List (Nat × α)) (f : Nat × α → Bool) (h : sorted m = true) : sorted (m.filter f) = true := by
  induction m with
  | nil => rfl
  | cons q r ih =>
    obtain ⟨i, w⟩ := q
    have hq := (sorted_cons i w r).1 h
    rw [List.filter_cons]
    split
    · exact (sorted_cons _ _ _).2 ⟨fun p hp => hq.1 p (List.mem_filter.1 hp).1, ih hq.2⟩
    · exact ih hq.2

variable [DecidableEq α] (d : α)

theorem wf_nil : wf d ([] : List (Nat × α)) = true := rfl

theorem wf_filter (m : List (Nat × α)) (f : Nat × α → Bool) (h : wf d m = true) : wf d (m.filter f) = true := by
  simp only [wf, Bool.and_eq_true, List.all_eq_true, decide_eq_true_eq] at h ⊢
  exact ⟨sorted_filter m f h.1, fun p hp => h.2 p (List.mem_filter.1 hp).1⟩

theorem wf_erase (m : List (Nat × α)) (k : Nat) (h : wf d m = true) : wf d (erase m k) = true := wf_filter d m _ h

theorem wf_put (m : List (Nat × α)) (k : Nat) (v : α) (h : wf d m = true) : wf d (put d m k v) = true := by
  unfold put
  split
  · exact wf_erase d m k h
  · rename_i hv
    simp only [wf, Bool.and_eq_true, List.all_eq_true, decide_eq_true_eq] at h ⊢
    refine ⟨sorted_set m k v h.1, fun p hp => ?_⟩
    rcases mem_set m k v p hp with rfl | hp
    · exact hv
    · exact h.2 p hp

omit [DecidableEq α] in
/-- A key below every listed one is not listed. -/
theorem find_none_of_lt (m : List (Nat × α)) (k : Nat) (h : ∀ p ∈ m, k < p.1) : find m k = none := by
  induction m with
  | nil => rfl
  | cons q r ih =>
    obtain ⟨i, w⟩ := q
    have := h (i, w) (by simp)
    simp only [find]
    rw [if_neg (by simp only at this; omega)]
    exact ih (fun p hp => h p (by simp [hp]))

end Sys2Proof.Machine.Map
end

