-- ==== Sys2Proof/Laws/State.lean ====
section
/-! SUPPORT. What each named update of the state leaves alone, one lemma for each field, and what reading after it gives. -/

namespace Sys2Proof.Machine

/-! ### setThr -/

@[simp] theorem State.setThr_pending (s : State) (t : Tid) (th : Thread) : (s.setThr t th).pending = s.pending := rfl
@[simp] theorem State.setThr_i20 (s : State) (t : Tid) (th : Thread) : (s.setThr t th).i20 = s.i20 := rfl
@[simp] theorem State.setThr_straps (s : State) (t : Tid) (th : Thread) : (s.setThr t th).straps = s.straps := rfl
@[simp] theorem State.setThr_fuseDebug (s : State) (t : Tid) (th : Thread) : (s.setThr t th).fuseDebug = s.fuseDebug := rfl
@[simp] theorem State.setThr_keyHash (s : State) (t : Tid) (th : Thread) : (s.setThr t th).keyHash = s.keyHash := rfl
@[simp] theorem State.setThr_timeNow (s : State) (t : Tid) (th : Thread) : (s.setThr t th).timeNow = s.timeNow := rfl
@[simp] theorem State.setThr_fresh (s : State) (t : Tid) (th : Thread) : (s.setThr t th).fresh = s.fresh := rfl
@[simp] theorem State.setThr_halted (s : State) (t : Tid) (th : Thread) : (s.setThr t th).halted = s.halted := rfl
@[simp] theorem State.setThr_thermTrip (s : State) (t : Tid) (th : Thread) : (s.setThr t th).thermTrip = s.thermTrip := rfl
@[simp] theorem State.setThr_tiles (s : State) (t : Tid) (th : Thread) : (s.setThr t th).tiles = s.tiles := rfl
@[simp] theorem State.setThr_ctlb (s : State) (t : Tid) (th : Thread) : (s.setThr t th).ctlb = s.ctlb := rfl
@[simp] theorem State.setThr_l2 (s : State) (t : Tid) (th : Thread) : (s.setThr t th).l2 = s.l2 := rfl
@[simp] theorem State.setThr_mem (s : State) (t : Tid) (th : Thread) : (s.setThr t th).mem = s.mem := rfl
@[simp] theorem State.setThr_gran (s : State) (t : Tid) (th : Thread) : (s.setThr t th).gran = s.gran := rfl
@[simp] theorem State.setThr_ue (s : State) (t : Tid) (th : Thread) : (s.setThr t th).ue = s.ue := rfl
@[simp] theorem State.setThr_weak (s : State) (t : Tid) (th : Thread) : (s.setThr t th).weak = s.weak := rfl
@[simp] theorem State.setThr_sramErr (s : State) (t : Tid) (th : Thread) : (s.setThr t th).sramErr = s.sramErr := rfl
@[simp] theorem State.setThr_busWaits (s : State) (t : Tid) (th : Thread) : (s.setThr t th).busWaits = s.busWaits := rfl
@[simp] theorem State.setThr_posted (s : State) (t : Tid) (th : Thread) : (s.setThr t th).posted = s.posted := rfl
@[simp] theorem State.setThr_rawWaits (s : State) (t : Tid) (th : Thread) : (s.setThr t th).rawWaits = s.rawWaits := rfl
@[simp] theorem State.setThr_channels (s : State) (t : Tid) (th : Thread) : (s.setThr t th).channels = s.channels := rfl
@[simp] theorem State.setThr_regs (s : State) (t : Tid) (th : Thread) : (s.setThr t th).regs = s.regs := rfl
@[simp] theorem State.setThr_gateOld (s : State) (t : Tid) (th : Thread) : (s.setThr t th).gateOld = s.gateOld := rfl
@[simp] theorem State.setThr_gateMark (s : State) (t : Tid) (th : Thread) : (s.setThr t th).gateMark = s.gateMark := rfl
@[simp] theorem State.setThr_rawStopped (s : State) (t : Tid) (th : Thread) : (s.setThr t th).rawStopped = s.rawStopped := rfl
@[simp] theorem State.setThr_invals (s : State) (t : Tid) (th : Thread) : (s.setThr t th).invals = s.invals := rfl
@[simp] theorem State.setThr_etch (s : State) (t : Tid) (th : Thread) : (s.setThr t th).etch = s.etch := rfl
@[simp] theorem State.setThr_drive0 (s : State) (t : Tid) (th : Thread) : (s.setThr t th).drive0 = s.drive0 := rfl
@[simp] theorem State.setThr_drive1 (s : State) (t : Tid) (th : Thread) : (s.setThr t th).drive1 = s.drive1 := rfl
@[simp] theorem State.setThr_ports (s : State) (t : Tid) (th : Thread) : (s.setThr t th).ports = s.ports := rfl
@[simp] theorem State.setThr_pools (s : State) (t : Tid) (th : Thread) : (s.setThr t th).pools = s.pools := rfl
@[simp] theorem State.setThr_keys (s : State) (t : Tid) (th : Thread) : (s.setThr t th).keys = s.keys := rfl
@[simp] theorem State.setThr_stagedKey (s : State) (t : Tid) (th : Thread) : (s.setThr t th).stagedKey = s.stagedKey := rfl
@[simp] theorem State.setThr_stagedIv (s : State) (t : Tid) (th : Thread) : (s.setThr t th).stagedIv = s.stagedIv := rfl
@[simp] theorem State.setThr_sudon (s : State) (t : Tid) (th : Thread) : (s.setThr t th).sudon = s.sudon := rfl
@[simp] theorem State.setThr_bellows (s : State) (t : Tid) (th : Thread) : (s.setThr t th).bellows = s.bellows := rfl
@[simp] theorem State.setThr_cal (s : State) (t : Tid) (th : Thread) : (s.setThr t th).cal = s.cal := rfl
@[simp] theorem State.setThr_recorder (s : State) (t : Tid) (th : Thread) : (s.setThr t th).recorder = s.recorder := rfl
@[simp] theorem State.setThr_dbg (s : State) (t : Tid) (th : Thread) : (s.setThr t th).dbg = s.dbg := rfl
@[simp] theorem State.setThr_boot (s : State) (t : Tid) (th : Thread) : (s.setThr t th).boot = s.boot := rfl
@[simp] theorem State.setThr_msix (s : State) (t : Tid) (th : Thread) : (s.setThr t th).msix = s.msix := rfl
@[simp] theorem State.setThr_out (s : State) (t : Tid) (th : Thread) : (s.setThr t th).out = s.out := rfl

/-! ### modThr -/

@[simp] theorem State.modThr_pending (s : State) (t : Tid) (f : Thread → Thread) : (s.modThr t f).pending = s.pending := rfl
@[simp] theorem State.modThr_i20 (s : State) (t : Tid) (f : Thread → Thread) : (s.modThr t f).i20 = s.i20 := rfl
@[simp] theorem State.modThr_straps (s : State) (t : Tid) (f : Thread → Thread) : (s.modThr t f).straps = s.straps := rfl
@[simp] theorem State.modThr_fuseDebug (s : State) (t : Tid) (f : Thread → Thread) : (s.modThr t f).fuseDebug = s.fuseDebug := rfl
@[simp] theorem State.modThr_keyHash (s : State) (t : Tid) (f : Thread → Thread) : (s.modThr t f).keyHash = s.keyHash := rfl
@[simp] theorem State.modThr_timeNow (s : State) (t : Tid) (f : Thread → Thread) : (s.modThr t f).timeNow = s.timeNow := rfl
@[simp] theorem State.modThr_fresh (s : State) (t : Tid) (f : Thread → Thread) : (s.modThr t f).fresh = s.fresh := rfl
@[simp] theorem State.modThr_halted (s : State) (t : Tid) (f : Thread → Thread) : (s.modThr t f).halted = s.halted := rfl
@[simp] theorem State.modThr_thermTrip (s : State) (t : Tid) (f : Thread → Thread) : (s.modThr t f).thermTrip = s.thermTrip := rfl
@[simp] theorem State.modThr_tiles (s : State) (t : Tid) (f : Thread → Thread) : (s.modThr t f).tiles = s.tiles := rfl
@[simp] theorem State.modThr_ctlb (s : State) (t : Tid) (f : Thread → Thread) : (s.modThr t f).ctlb = s.ctlb := rfl
@[simp] theorem State.modThr_l2 (s : State) (t : Tid) (f : Thread → Thread) : (s.modThr t f).l2 = s.l2 := rfl
@[simp] theorem State.modThr_mem (s : State) (t : Tid) (f : Thread → Thread) : (s.modThr t f).mem = s.mem := rfl
@[simp] theorem State.modThr_gran (s : State) (t : Tid) (f : Thread → Thread) : (s.modThr t f).gran = s.gran := rfl
@[simp] theorem State.modThr_ue (s : State) (t : Tid) (f : Thread → Thread) : (s.modThr t f).ue = s.ue := rfl
@[simp] theorem State.modThr_weak (s : State) (t : Tid) (f : Thread → Thread) : (s.modThr t f).weak = s.weak := rfl
@[simp] theorem State.modThr_sramErr (s : State) (t : Tid) (f : Thread → Thread) : (s.modThr t f).sramErr = s.sramErr := rfl
@[simp] theorem State.modThr_busWaits (s : State) (t : Tid) (f : Thread → Thread) : (s.modThr t f).busWaits = s.busWaits := rfl
@[simp] theorem State.modThr_posted (s : State) (t : Tid) (f : Thread → Thread) : (s.modThr t f).posted = s.posted := rfl
@[simp] theorem State.modThr_rawWaits (s : State) (t : Tid) (f : Thread → Thread) : (s.modThr t f).rawWaits = s.rawWaits := rfl
@[simp] theorem State.modThr_channels (s : State) (t : Tid) (f : Thread → Thread) : (s.modThr t f).channels = s.channels := rfl
@[simp] theorem State.modThr_regs (s : State) (t : Tid) (f : Thread → Thread) : (s.modThr t f).regs = s.regs := rfl
@[simp] theorem State.modThr_gateOld (s : State) (t : Tid) (f : Thread → Thread) : (s.modThr t f).gateOld = s.gateOld := rfl
@[simp] theorem State.modThr_gateMark (s : State) (t : Tid) (f : Thread → Thread) : (s.modThr t f).gateMark = s.gateMark := rfl
@[simp] theorem State.modThr_rawStopped (s : State) (t : Tid) (f : Thread → Thread) : (s.modThr t f).rawStopped = s.rawStopped := rfl
@[simp] theorem State.modThr_invals (s : State) (t : Tid) (f : Thread → Thread) : (s.modThr t f).invals = s.invals := rfl
@[simp] theorem State.modThr_etch (s : State) (t : Tid) (f : Thread → Thread) : (s.modThr t f).etch = s.etch := rfl
@[simp] theorem State.modThr_drive0 (s : State) (t : Tid) (f : Thread → Thread) : (s.modThr t f).drive0 = s.drive0 := rfl
@[simp] theorem State.modThr_drive1 (s : State) (t : Tid) (f : Thread → Thread) : (s.modThr t f).drive1 = s.drive1 := rfl
@[simp] theorem State.modThr_ports (s : State) (t : Tid) (f : Thread → Thread) : (s.modThr t f).ports = s.ports := rfl
@[simp] theorem State.modThr_pools (s : State) (t : Tid) (f : Thread → Thread) : (s.modThr t f).pools = s.pools := rfl
@[simp] theorem State.modThr_keys (s : State) (t : Tid) (f : Thread → Thread) : (s.modThr t f).keys = s.keys := rfl
@[simp] theorem State.modThr_stagedKey (s : State) (t : Tid) (f : Thread → Thread) : (s.modThr t f).stagedKey = s.stagedKey := rfl
@[simp] theorem State.modThr_stagedIv (s : State) (t : Tid) (f : Thread → Thread) : (s.modThr t f).stagedIv = s.stagedIv := rfl
@[simp] theorem State.modThr_sudon (s : State) (t : Tid) (f : Thread → Thread) : (s.modThr t f).sudon = s.sudon := rfl
@[simp] theorem State.modThr_bellows (s : State) (t : Tid) (f : Thread → Thread) : (s.modThr t f).bellows = s.bellows := rfl
@[simp] theorem State.modThr_cal (s : State) (t : Tid) (f : Thread → Thread) : (s.modThr t f).cal = s.cal := rfl
@[simp] theorem State.modThr_recorder (s : State) (t : Tid) (f : Thread → Thread) : (s.modThr t f).recorder = s.recorder := rfl
@[simp] theorem State.modThr_dbg (s : State) (t : Tid) (f : Thread → Thread) : (s.modThr t f).dbg = s.dbg := rfl
@[simp] theorem State.modThr_boot (s : State) (t : Tid) (f : Thread → Thread) : (s.modThr t f).boot = s.boot := rfl
@[simp] theorem State.modThr_msix (s : State) (t : Tid) (f : Thread → Thread) : (s.modThr t f).msix = s.msix := rfl
@[simp] theorem State.modThr_out (s : State) (t : Tid) (f : Thread → Thread) : (s.modThr t f).out = s.out := rfl

/-! ### setTile -/

@[simp] theorem State.setTile_pending (s : State) (n : Nat) (x : Tile) : (s.setTile n x).pending = s.pending := rfl
@[simp] theorem State.setTile_i20 (s : State) (n : Nat) (x : Tile) : (s.setTile n x).i20 = s.i20 := rfl
@[simp] theorem State.setTile_straps (s : State) (n : Nat) (x : Tile) : (s.setTile n x).straps = s.straps := rfl
@[simp] theorem State.setTile_fuseDebug (s : State) (n : Nat) (x : Tile) : (s.setTile n x).fuseDebug = s.fuseDebug := rfl
@[simp] theorem State.setTile_keyHash (s : State) (n : Nat) (x : Tile) : (s.setTile n x).keyHash = s.keyHash := rfl
@[simp] theorem State.setTile_timeNow (s : State) (n : Nat) (x : Tile) : (s.setTile n x).timeNow = s.timeNow := rfl
@[simp] theorem State.setTile_fresh (s : State) (n : Nat) (x : Tile) : (s.setTile n x).fresh = s.fresh := rfl
@[simp] theorem State.setTile_halted (s : State) (n : Nat) (x : Tile) : (s.setTile n x).halted = s.halted := rfl
@[simp] theorem State.setTile_thermTrip (s : State) (n : Nat) (x : Tile) : (s.setTile n x).thermTrip = s.thermTrip := rfl
@[simp] theorem State.setTile_threads (s : State) (n : Nat) (x : Tile) : (s.setTile n x).threads = s.threads := rfl
@[simp] theorem State.setTile_ctlb (s : State) (n : Nat) (x : Tile) : (s.setTile n x).ctlb = s.ctlb := rfl
@[simp] theorem State.setTile_l2 (s : State) (n : Nat) (x : Tile) : (s.setTile n x).l2 = s.l2 := rfl
@[simp] theorem State.setTile_mem (s : State) (n : Nat) (x : Tile) : (s.setTile n x).mem = s.mem := rfl
@[simp] theorem State.setTile_gran (s : State) (n : Nat) (x : Tile) : (s.setTile n x).gran = s.gran := rfl
@[simp] theorem State.setTile_ue (s : State) (n : Nat) (x : Tile) : (s.setTile n x).ue = s.ue := rfl
@[simp] theorem State.setTile_weak (s : State) (n : Nat) (x : Tile) : (s.setTile n x).weak = s.weak := rfl
@[simp] theorem State.setTile_sramErr (s : State) (n : Nat) (x : Tile) : (s.setTile n x).sramErr = s.sramErr := rfl
@[simp] theorem State.setTile_busWaits (s : State) (n : Nat) (x : Tile) : (s.setTile n x).busWaits = s.busWaits := rfl
@[simp] theorem State.setTile_posted (s : State) (n : Nat) (x : Tile) : (s.setTile n x).posted = s.posted := rfl
@[simp] theorem State.setTile_rawWaits (s : State) (n : Nat) (x : Tile) : (s.setTile n x).rawWaits = s.rawWaits := rfl
@[simp] theorem State.setTile_channels (s : State) (n : Nat) (x : Tile) : (s.setTile n x).channels = s.channels := rfl
@[simp] theorem State.setTile_regs (s : State) (n : Nat) (x : Tile) : (s.setTile n x).regs = s.regs := rfl
@[simp] theorem State.setTile_gateOld (s : State) (n : Nat) (x : Tile) : (s.setTile n x).gateOld = s.gateOld := rfl
@[simp] theorem State.setTile_gateMark (s : State) (n : Nat) (x : Tile) : (s.setTile n x).gateMark = s.gateMark := rfl
@[simp] theorem State.setTile_rawStopped (s : State) (n : Nat) (x : Tile) : (s.setTile n x).rawStopped = s.rawStopped := rfl
@[simp] theorem State.setTile_invals (s : State) (n : Nat) (x : Tile) : (s.setTile n x).invals = s.invals := rfl
@[simp] theorem State.setTile_etch (s : State) (n : Nat) (x : Tile) : (s.setTile n x).etch = s.etch := rfl
@[simp] theorem State.setTile_drive0 (s : State) (n : Nat) (x : Tile) : (s.setTile n x).drive0 = s.drive0 := rfl
@[simp] theorem State.setTile_drive1 (s : State) (n : Nat) (x : Tile) : (s.setTile n x).drive1 = s.drive1 := rfl
@[simp] theorem State.setTile_ports (s : State) (n : Nat) (x : Tile) : (s.setTile n x).ports = s.ports := rfl
@[simp] theorem State.setTile_pools (s : State) (n : Nat) (x : Tile) : (s.setTile n x).pools = s.pools := rfl
@[simp] theorem State.setTile_keys (s : State) (n : Nat) (x : Tile) : (s.setTile n x).keys = s.keys := rfl
@[simp] theorem State.setTile_stagedKey (s : State) (n : Nat) (x : Tile) : (s.setTile n x).stagedKey = s.stagedKey := rfl
@[simp] theorem State.setTile_stagedIv (s : State) (n : Nat) (x : Tile) : (s.setTile n x).stagedIv = s.stagedIv := rfl
@[simp] theorem State.setTile_sudon (s : State) (n : Nat) (x : Tile) : (s.setTile n x).sudon = s.sudon := rfl
@[simp] theorem State.setTile_bellows (s : State) (n : Nat) (x : Tile) : (s.setTile n x).bellows = s.bellows := rfl
@[simp] theorem State.setTile_cal (s : State) (n : Nat) (x : Tile) : (s.setTile n x).cal = s.cal := rfl
@[simp] theorem State.setTile_recorder (s : State) (n : Nat) (x : Tile) : (s.setTile n x).recorder = s.recorder := rfl
@[simp] theorem State.setTile_dbg (s : State) (n : Nat) (x : Tile) : (s.setTile n x).dbg = s.dbg := rfl
@[simp] theorem State.setTile_boot (s : State) (n : Nat) (x : Tile) : (s.setTile n x).boot = s.boot := rfl
@[simp] theorem State.setTile_msix (s : State) (n : Nat) (x : Tile) : (s.setTile n x).msix = s.msix := rfl
@[simp] theorem State.setTile_out (s : State) (n : Nat) (x : Tile) : (s.setTile n x).out = s.out := rfl

/-! ### setPort -/

@[simp] theorem State.setPort_pending (s : State) (n : Nat) (p : Port) : (s.setPort n p).pending = s.pending := rfl
@[simp] theorem State.setPort_i20 (s : State) (n : Nat) (p : Port) : (s.setPort n p).i20 = s.i20 := rfl
@[simp] theorem State.setPort_straps (s : State) (n : Nat) (p : Port) : (s.setPort n p).straps = s.straps := rfl
@[simp] theorem State.setPort_fuseDebug (s : State) (n : Nat) (p : Port) : (s.setPort n p).fuseDebug = s.fuseDebug := rfl
@[simp] theorem State.setPort_keyHash (s : State) (n : Nat) (p : Port) : (s.setPort n p).keyHash = s.keyHash := rfl
@[simp] theorem State.setPort_timeNow (s : State) (n : Nat) (p : Port) : (s.setPort n p).timeNow = s.timeNow := rfl
@[simp] theorem State.setPort_fresh (s : State) (n : Nat) (p : Port) : (s.setPort n p).fresh = s.fresh := rfl
@[simp] theorem State.setPort_halted (s : State) (n : Nat) (p : Port) : (s.setPort n p).halted = s.halted := rfl
@[simp] theorem State.setPort_thermTrip (s : State) (n : Nat) (p : Port) : (s.setPort n p).thermTrip = s.thermTrip := rfl
@[simp] theorem State.setPort_threads (s : State) (n : Nat) (p : Port) : (s.setPort n p).threads = s.threads := rfl
@[simp] theorem State.setPort_tiles (s : State) (n : Nat) (p : Port) : (s.setPort n p).tiles = s.tiles := rfl
@[simp] theorem State.setPort_ctlb (s : State) (n : Nat) (p : Port) : (s.setPort n p).ctlb = s.ctlb := rfl
@[simp] theorem State.setPort_l2 (s : State) (n : Nat) (p : Port) : (s.setPort n p).l2 = s.l2 := rfl
@[simp] theorem State.setPort_mem (s : State) (n : Nat) (p : Port) : (s.setPort n p).mem = s.mem := rfl
@[simp] theorem State.setPort_gran (s : State) (n : Nat) (p : Port) : (s.setPort n p).gran = s.gran := rfl
@[simp] theorem State.setPort_ue (s : State) (n : Nat) (p : Port) : (s.setPort n p).ue = s.ue := rfl
@[simp] theorem State.setPort_weak (s : State) (n : Nat) (p : Port) : (s.setPort n p).weak = s.weak := rfl
@[simp] theorem State.setPort_sramErr (s : State) (n : Nat) (p : Port) : (s.setPort n p).sramErr = s.sramErr := rfl
@[simp] theorem State.setPort_busWaits (s : State) (n : Nat) (p : Port) : (s.setPort n p).busWaits = s.busWaits := rfl
@[simp] theorem State.setPort_posted (s : State) (n : Nat) (p : Port) : (s.setPort n p).posted = s.posted := rfl
@[simp] theorem State.setPort_rawWaits (s : State) (n : Nat) (p : Port) : (s.setPort n p).rawWaits = s.rawWaits := rfl
@[simp] theorem State.setPort_channels (s : State) (n : Nat) (p : Port) : (s.setPort n p).channels = s.channels := rfl
@[simp] theorem State.setPort_regs (s : State) (n : Nat) (p : Port) : (s.setPort n p).regs = s.regs := rfl
@[simp] theorem State.setPort_gateOld (s : State) (n : Nat) (p : Port) : (s.setPort n p).gateOld = s.gateOld := rfl
@[simp] theorem State.setPort_gateMark (s : State) (n : Nat) (p : Port) : (s.setPort n p).gateMark = s.gateMark := rfl
@[simp] theorem State.setPort_rawStopped (s : State) (n : Nat) (p : Port) : (s.setPort n p).rawStopped = s.rawStopped := rfl
@[simp] theorem State.setPort_invals (s : State) (n : Nat) (p : Port) : (s.setPort n p).invals = s.invals := rfl
@[simp] theorem State.setPort_etch (s : State) (n : Nat) (p : Port) : (s.setPort n p).etch = s.etch := rfl
@[simp] theorem State.setPort_drive0 (s : State) (n : Nat) (p : Port) : (s.setPort n p).drive0 = s.drive0 := rfl
@[simp] theorem State.setPort_drive1 (s : State) (n : Nat) (p : Port) : (s.setPort n p).drive1 = s.drive1 := rfl
@[simp] theorem State.setPort_pools (s : State) (n : Nat) (p : Port) : (s.setPort n p).pools = s.pools := rfl
@[simp] theorem State.setPort_keys (s : State) (n : Nat) (p : Port) : (s.setPort n p).keys = s.keys := rfl
@[simp] theorem State.setPort_stagedKey (s : State) (n : Nat) (p : Port) : (s.setPort n p).stagedKey = s.stagedKey := rfl
@[simp] theorem State.setPort_stagedIv (s : State) (n : Nat) (p : Port) : (s.setPort n p).stagedIv = s.stagedIv := rfl
@[simp] theorem State.setPort_sudon (s : State) (n : Nat) (p : Port) : (s.setPort n p).sudon = s.sudon := rfl
@[simp] theorem State.setPort_bellows (s : State) (n : Nat) (p : Port) : (s.setPort n p).bellows = s.bellows := rfl
@[simp] theorem State.setPort_cal (s : State) (n : Nat) (p : Port) : (s.setPort n p).cal = s.cal := rfl
@[simp] theorem State.setPort_recorder (s : State) (n : Nat) (p : Port) : (s.setPort n p).recorder = s.recorder := rfl
@[simp] theorem State.setPort_dbg (s : State) (n : Nat) (p : Port) : (s.setPort n p).dbg = s.dbg := rfl
@[simp] theorem State.setPort_boot (s : State) (n : Nat) (p : Port) : (s.setPort n p).boot = s.boot := rfl
@[simp] theorem State.setPort_msix (s : State) (n : Nat) (p : Port) : (s.setPort n p).msix = s.msix := rfl
@[simp] theorem State.setPort_out (s : State) (n : Nat) (p : Port) : (s.setPort n p).out = s.out := rfl

/-! ### modPort -/

@[simp] theorem State.modPort_pending (s : State) (n : Nat) (f : Port → Port) : (s.modPort n f).pending = s.pending := rfl
@[simp] theorem State.modPort_i20 (s : State) (n : Nat) (f : Port → Port) : (s.modPort n f).i20 = s.i20 := rfl
@[simp] theorem State.modPort_straps (s : State) (n : Nat) (f : Port → Port) : (s.modPort n f).straps = s.straps := rfl
@[simp] theorem State.modPort_fuseDebug (s : State) (n : Nat) (f : Port → Port) : (s.modPort n f).fuseDebug = s.fuseDebug := rfl
@[simp] theorem State.modPort_keyHash (s : State) (n : Nat) (f : Port → Port) : (s.modPort n f).keyHash = s.keyHash := rfl
@[simp] theorem State.modPort_timeNow (s : State) (n : Nat) (f : Port → Port) : (s.modPort n f).timeNow = s.timeNow := rfl
@[simp] theorem State.modPort_fresh (s : State) (n : Nat) (f : Port → Port) : (s.modPort n f).fresh = s.fresh := rfl
@[simp] theorem State.modPort_halted (s : State) (n : Nat) (f : Port → Port) : (s.modPort n f).halted = s.halted := rfl
@[simp] theorem State.modPort_thermTrip (s : State) (n : Nat) (f : Port → Port) : (s.modPort n f).thermTrip = s.thermTrip := rfl
@[simp] theorem State.modPort_threads (s : State) (n : Nat) (f : Port → Port) : (s.modPort n f).threads = s.threads := rfl
@[simp] theorem State.modPort_tiles (s : State) (n : Nat) (f : Port → Port) : (s.modPort n f).tiles = s.tiles := rfl
@[simp] theorem State.modPort_ctlb (s : State) (n : Nat) (f : Port → Port) : (s.modPort n f).ctlb = s.ctlb := rfl
@[simp] theorem State.modPort_l2 (s : State) (n : Nat) (f : Port → Port) : (s.modPort n f).l2 = s.l2 := rfl
@[simp] theorem State.modPort_mem (s : State) (n : Nat) (f : Port → Port) : (s.modPort n f).mem = s.mem := rfl
@[simp] theorem State.modPort_gran (s : State) (n : Nat) (f : Port → Port) : (s.modPort n f).gran = s.gran := rfl
@[simp] theorem State.modPort_ue (s : State) (n : Nat) (f : Port → Port) : (s.modPort n f).ue = s.ue := rfl
@[simp] theorem State.modPort_weak (s : State) (n : Nat) (f : Port → Port) : (s.modPort n f).weak = s.weak := rfl
@[simp] theorem State.modPort_sramErr (s : State) (n : Nat) (f : Port → Port) : (s.modPort n f).sramErr = s.sramErr := rfl
@[simp] theorem State.modPort_busWaits (s : State) (n : Nat) (f : Port → Port) : (s.modPort n f).busWaits = s.busWaits := rfl
@[simp] theorem State.modPort_posted (s : State) (n : Nat) (f : Port → Port) : (s.modPort n f).posted = s.posted := rfl
@[simp] theorem State.modPort_rawWaits (s : State) (n : Nat) (f : Port → Port) : (s.modPort n f).rawWaits = s.rawWaits := rfl
@[simp] theorem State.modPort_channels (s : State) (n : Nat) (f : Port → Port) : (s.modPort n f).channels = s.channels := rfl
@[simp] theorem State.modPort_regs (s : State) (n : Nat) (f : Port → Port) : (s.modPort n f).regs = s.regs := rfl
@[simp] theorem State.modPort_gateOld (s : State) (n : Nat) (f : Port → Port) : (s.modPort n f).gateOld = s.gateOld := rfl
@[simp] theorem State.modPort_gateMark (s : State) (n : Nat) (f : Port → Port) : (s.modPort n f).gateMark = s.gateMark := rfl
@[simp] theorem State.modPort_rawStopped (s : State) (n : Nat) (f : Port → Port) : (s.modPort n f).rawStopped = s.rawStopped := rfl
@[simp] theorem State.modPort_invals (s : State) (n : Nat) (f : Port → Port) : (s.modPort n f).invals = s.invals := rfl
@[simp] theorem State.modPort_etch (s : State) (n : Nat) (f : Port → Port) : (s.modPort n f).etch = s.etch := rfl
@[simp] theorem State.modPort_drive0 (s : State) (n : Nat) (f : Port → Port) : (s.modPort n f).drive0 = s.drive0 := rfl
@[simp] theorem State.modPort_drive1 (s : State) (n : Nat) (f : Port → Port) : (s.modPort n f).drive1 = s.drive1 := rfl
@[simp] theorem State.modPort_pools (s : State) (n : Nat) (f : Port → Port) : (s.modPort n f).pools = s.pools := rfl
@[simp] theorem State.modPort_keys (s : State) (n : Nat) (f : Port → Port) : (s.modPort n f).keys = s.keys := rfl
@[simp] theorem State.modPort_stagedKey (s : State) (n : Nat) (f : Port → Port) : (s.modPort n f).stagedKey = s.stagedKey := rfl
@[simp] theorem State.modPort_stagedIv (s : State) (n : Nat) (f : Port → Port) : (s.modPort n f).stagedIv = s.stagedIv := rfl
@[simp] theorem State.modPort_sudon (s : State) (n : Nat) (f : Port → Port) : (s.modPort n f).sudon = s.sudon := rfl
@[simp] theorem State.modPort_bellows (s : State) (n : Nat) (f : Port → Port) : (s.modPort n f).bellows = s.bellows := rfl
@[simp] theorem State.modPort_cal (s : State) (n : Nat) (f : Port → Port) : (s.modPort n f).cal = s.cal := rfl
@[simp] theorem State.modPort_recorder (s : State) (n : Nat) (f : Port → Port) : (s.modPort n f).recorder = s.recorder := rfl
@[simp] theorem State.modPort_dbg (s : State) (n : Nat) (f : Port → Port) : (s.modPort n f).dbg = s.dbg := rfl
@[simp] theorem State.modPort_boot (s : State) (n : Nat) (f : Port → Port) : (s.modPort n f).boot = s.boot := rfl
@[simp] theorem State.modPort_msix (s : State) (n : Nat) (f : Port → Port) : (s.modPort n f).msix = s.msix := rfl
@[simp] theorem State.modPort_out (s : State) (n : Nat) (f : Port → Port) : (s.modPort n f).out = s.out := rfl

/-! ### rset -/

@[simp] theorem State.rset_pending (s : State) (r : RName) (v : Word) : (s.rset r v).pending = s.pending := rfl
@[simp] theorem State.rset_i20 (s : State) (r : RName) (v : Word) : (s.rset r v).i20 = s.i20 := rfl
@[simp] theorem State.rset_straps (s : State) (r : RName) (v : Word) : (s.rset r v).straps = s.straps := rfl
@[simp] theorem State.rset_fuseDebug (s : State) (r : RName) (v : Word) : (s.rset r v).fuseDebug = s.fuseDebug := rfl
@[simp] theorem State.rset_keyHash (s : State) (r : RName) (v : Word) : (s.rset r v).keyHash = s.keyHash := rfl
@[simp] theorem State.rset_timeNow (s : State) (r : RName) (v : Word) : (s.rset r v).timeNow = s.timeNow := rfl
@[simp] theorem State.rset_fresh (s : State) (r : RName) (v : Word) : (s.rset r v).fresh = s.fresh := rfl
@[simp] theorem State.rset_halted (s : State) (r : RName) (v : Word) : (s.rset r v).halted = s.halted := rfl
@[simp] theorem State.rset_thermTrip (s : State) (r : RName) (v : Word) : (s.rset r v).thermTrip = s.thermTrip := rfl
@[simp] theorem State.rset_threads (s : State) (r : RName) (v : Word) : (s.rset r v).threads = s.threads := rfl
@[simp] theorem State.rset_tiles (s : State) (r : RName) (v : Word) : (s.rset r v).tiles = s.tiles := rfl
@[simp] theorem State.rset_ctlb (s : State) (r : RName) (v : Word) : (s.rset r v).ctlb = s.ctlb := rfl
@[simp] theorem State.rset_l2 (s : State) (r : RName) (v : Word) : (s.rset r v).l2 = s.l2 := rfl
@[simp] theorem State.rset_mem (s : State) (r : RName) (v : Word) : (s.rset r v).mem = s.mem := rfl
@[simp] theorem State.rset_gran (s : State) (r : RName) (v : Word) : (s.rset r v).gran = s.gran := rfl
@[simp] theorem State.rset_ue (s : State) (r : RName) (v : Word) : (s.rset r v).ue = s.ue := rfl
@[simp] theorem State.rset_weak (s : State) (r : RName) (v : Word) : (s.rset r v).weak = s.weak := rfl
@[simp] theorem State.rset_sramErr (s : State) (r : RName) (v : Word) : (s.rset r v).sramErr = s.sramErr := rfl
@[simp] theorem State.rset_busWaits (s : State) (r : RName) (v : Word) : (s.rset r v).busWaits = s.busWaits := rfl
@[simp] theorem State.rset_posted (s : State) (r : RName) (v : Word) : (s.rset r v).posted = s.posted := rfl
@[simp] theorem State.rset_rawWaits (s : State) (r : RName) (v : Word) : (s.rset r v).rawWaits = s.rawWaits := rfl
@[simp] theorem State.rset_channels (s : State) (r : RName) (v : Word) : (s.rset r v).channels = s.channels := rfl
@[simp] theorem State.rset_gateOld (s : State) (r : RName) (v : Word) : (s.rset r v).gateOld = s.gateOld := rfl
@[simp] theorem State.rset_gateMark (s : State) (r : RName) (v : Word) : (s.rset r v).gateMark = s.gateMark := rfl
@[simp] theorem State.rset_rawStopped (s : State) (r : RName) (v : Word) : (s.rset r v).rawStopped = s.rawStopped := rfl
@[simp] theorem State.rset_invals (s : State) (r : RName) (v : Word) : (s.rset r v).invals = s.invals := rfl
@[simp] theorem State.rset_etch (s : State) (r : RName) (v : Word) : (s.rset r v).etch = s.etch := rfl
@[simp] theorem State.rset_drive0 (s : State) (r : RName) (v : Word) : (s.rset r v).drive0 = s.drive0 := rfl
@[simp] theorem State.rset_drive1 (s : State) (r : RName) (v : Word) : (s.rset r v).drive1 = s.drive1 := rfl
@[simp] theorem State.rset_ports (s : State) (r : RName) (v : Word) : (s.rset r v).ports = s.ports := rfl
@[simp] theorem State.rset_pools (s : State) (r : RName) (v : Word) : (s.rset r v).pools = s.pools := rfl
@[simp] theorem State.rset_keys (s : State) (r : RName) (v : Word) : (s.rset r v).keys = s.keys := rfl
@[simp] theorem State.rset_stagedKey (s : State) (r : RName) (v : Word) : (s.rset r v).stagedKey = s.stagedKey := rfl
@[simp] theorem State.rset_stagedIv (s : State) (r : RName) (v : Word) : (s.rset r v).stagedIv = s.stagedIv := rfl
@[simp] theorem State.rset_sudon (s : State) (r : RName) (v : Word) : (s.rset r v).sudon = s.sudon := rfl
@[simp] theorem State.rset_bellows (s : State) (r : RName) (v : Word) : (s.rset r v).bellows = s.bellows := rfl
@[simp] theorem State.rset_cal (s : State) (r : RName) (v : Word) : (s.rset r v).cal = s.cal := rfl
@[simp] theorem State.rset_recorder (s : State) (r : RName) (v : Word) : (s.rset r v).recorder = s.recorder := rfl
@[simp] theorem State.rset_dbg (s : State) (r : RName) (v : Word) : (s.rset r v).dbg = s.dbg := rfl
@[simp] theorem State.rset_boot (s : State) (r : RName) (v : Word) : (s.rset r v).boot = s.boot := rfl
@[simp] theorem State.rset_msix (s : State) (r : RName) (v : Word) : (s.rset r v).msix = s.msix := rfl
@[simp] theorem State.rset_out (s : State) (r : RName) (v : Word) : (s.rset r v).out = s.out := rfl

/-! ### rsetField -/

@[simp] theorem State.rsetField_pending (s : State) (r : RName) (lo w x : Nat) : (s.rsetField r lo w x).pending = s.pending := rfl
@[simp] theorem State.rsetField_i20 (s : State) (r : RName) (lo w x : Nat) : (s.rsetField r lo w x).i20 = s.i20 := rfl
@[simp] theorem State.rsetField_straps (s : State) (r : RName) (lo w x : Nat) : (s.rsetField r lo w x).straps = s.straps := rfl
@[simp] theorem State.rsetField_fuseDebug (s : State) (r : RName) (lo w x : Nat) : (s.rsetField r lo w x).fuseDebug = s.fuseDebug := rfl
@[simp] theorem State.rsetField_keyHash (s : State) (r : RName) (lo w x : Nat) : (s.rsetField r lo w x).keyHash = s.keyHash := rfl
@[simp] theorem State.rsetField_timeNow (s : State) (r : RName) (lo w x : Nat) : (s.rsetField r lo w x).timeNow = s.timeNow := rfl
@[simp] theorem State.rsetField_fresh (s : State) (r : RName) (lo w x : Nat) : (s.rsetField r lo w x).fresh = s.fresh := rfl
@[simp] theorem State.rsetField_halted (s : State) (r : RName) (lo w x : Nat) : (s.rsetField r lo w x).halted = s.halted := rfl
@[simp] theorem State.rsetField_thermTrip (s : State) (r : RName) (lo w x : Nat) : (s.rsetField r lo w x).thermTrip = s.thermTrip := rfl
@[simp] theorem State.rsetField_threads (s : State) (r : RName) (lo w x : Nat) : (s.rsetField r lo w x).threads = s.threads := rfl
@[simp] theorem State.rsetField_tiles (s : State) (r : RName) (lo w x : Nat) : (s.rsetField r lo w x).tiles = s.tiles := rfl
@[simp] theorem State.rsetField_ctlb (s : State) (r : RName) (lo w x : Nat) : (s.rsetField r lo w x).ctlb = s.ctlb := rfl
@[simp] theorem State.rsetField_l2 (s : State) (r : RName) (lo w x : Nat) : (s.rsetField r lo w x).l2 = s.l2 := rfl
@[simp] theorem State.rsetField_mem (s : State) (r : RName) (lo w x : Nat) : (s.rsetField r lo w x).mem = s.mem := rfl
@[simp] theorem State.rsetField_gran (s : State) (r : RName) (lo w x : Nat) : (s.rsetField r lo w x).gran = s.gran := rfl
@[simp] theorem State.rsetField_ue (s : State) (r : RName) (lo w x : Nat) : (s.rsetField r lo w x).ue = s.ue := rfl
@[simp] theorem State.rsetField_weak (s : State) (r : RName) (lo w x : Nat) : (s.rsetField r lo w x).weak = s.weak := rfl
@[simp] theorem State.rsetField_sramErr (s : State) (r : RName) (lo w x : Nat) : (s.rsetField r lo w x).sramErr = s.sramErr := rfl
@[simp] theorem State.rsetField_busWaits (s : State) (r : RName) (lo w x : Nat) : (s.rsetField r lo w x).busWaits = s.busWaits := rfl
@[simp] theorem State.rsetField_posted (s : State) (r : RName) (lo w x : Nat) : (s.rsetField r lo w x).posted = s.posted := rfl
@[simp] theorem State.rsetField_rawWaits (s : State) (r : RName) (lo w x : Nat) : (s.rsetField r lo w x).rawWaits = s.rawWaits := rfl
@[simp] theorem State.rsetField_channels (s : State) (r : RName) (lo w x : Nat) : (s.rsetField r lo w x).channels = s.channels := rfl
@[simp] theorem State.rsetField_gateOld (s : State) (r : RName) (lo w x : Nat) : (s.rsetField r lo w x).gateOld = s.gateOld := rfl
@[simp] theorem State.rsetField_gateMark (s : State) (r : RName) (lo w x : Nat) : (s.rsetField r lo w x).gateMark = s.gateMark := rfl
@[simp] theorem State.rsetField_rawStopped (s : State) (r : RName) (lo w x : Nat) : (s.rsetField r lo w x).rawStopped = s.rawStopped := rfl
@[simp] theorem State.rsetField_invals (s : State) (r : RName) (lo w x : Nat) : (s.rsetField r lo w x).invals = s.invals := rfl
@[simp] theorem State.rsetField_etch (s : State) (r : RName) (lo w x : Nat) : (s.rsetField r lo w x).etch = s.etch := rfl
@[simp] theorem State.rsetField_drive0 (s : State) (r : RName) (lo w x : Nat) : (s.rsetField r lo w x).drive0 = s.drive0 := rfl
@[simp] theorem State.rsetField_drive1 (s : State) (r : RName) (lo w x : Nat) : (s.rsetField r lo w x).drive1 = s.drive1 := rfl
@[simp] theorem State.rsetField_ports (s : State) (r : RName) (lo w x : Nat) : (s.rsetField r lo w x).ports = s.ports := rfl
@[simp] theorem State.rsetField_pools (s : State) (r : RName) (lo w x : Nat) : (s.rsetField r lo w x).pools = s.pools := rfl
@[simp] theorem State.rsetField_keys (s : State) (r : RName) (lo w x : Nat) : (s.rsetField r lo w x).keys = s.keys := rfl
@[simp] theorem State.rsetField_stagedKey (s : State) (r : RName) (lo w x : Nat) : (s.rsetField r lo w x).stagedKey = s.stagedKey := rfl
@[simp] theorem State.rsetField_stagedIv (s : State) (r : RName) (lo w x : Nat) : (s.rsetField r lo w x).stagedIv = s.stagedIv := rfl
@[simp] theorem State.rsetField_sudon (s : State) (r : RName) (lo w x : Nat) : (s.rsetField r lo w x).sudon = s.sudon := rfl
@[simp] theorem State.rsetField_bellows (s : State) (r : RName) (lo w x : Nat) : (s.rsetField r lo w x).bellows = s.bellows := rfl
@[simp] theorem State.rsetField_cal (s : State) (r : RName) (lo w x : Nat) : (s.rsetField r lo w x).cal = s.cal := rfl
@[simp] theorem State.rsetField_recorder (s : State) (r : RName) (lo w x : Nat) : (s.rsetField r lo w x).recorder = s.recorder := rfl
@[simp] theorem State.rsetField_dbg (s : State) (r : RName) (lo w x : Nat) : (s.rsetField r lo w x).dbg = s.dbg := rfl
@[simp] theorem State.rsetField_boot (s : State) (r : RName) (lo w x : Nat) : (s.rsetField r lo w x).boot = s.boot := rfl
@[simp] theorem State.rsetField_msix (s : State) (r : RName) (lo w x : Nat) : (s.rsetField r lo w x).msix = s.msix := rfl
@[simp] theorem State.rsetField_out (s : State) (r : RName) (lo w x : Nat) : (s.rsetField r lo w x).out = s.out := rfl

/-! ### rcount -/

@[simp] theorem State.rcount_pending (s : State) (r : RName) : (s.rcount r).pending = s.pending := rfl
@[simp] theorem State.rcount_i20 (s : State) (r : RName) : (s.rcount r).i20 = s.i20 := rfl
@[simp] theorem State.rcount_straps (s : State) (r : RName) : (s.rcount r).straps = s.straps := rfl
@[simp] theorem State.rcount_fuseDebug (s : State) (r : RName) : (s.rcount r).fuseDebug = s.fuseDebug := rfl
@[simp] theorem State.rcount_keyHash (s : State) (r : RName) : (s.rcount r).keyHash = s.keyHash := rfl
@[simp] theorem State.rcount_timeNow (s : State) (r : RName) : (s.rcount r).timeNow = s.timeNow := rfl
@[simp] theorem State.rcount_fresh (s : State) (r : RName) : (s.rcount r).fresh = s.fresh := rfl
@[simp] theorem State.rcount_halted (s : State) (r : RName) : (s.rcount r).halted = s.halted := rfl
@[simp] theorem State.rcount_thermTrip (s : State) (r : RName) : (s.rcount r).thermTrip = s.thermTrip := rfl
@[simp] theorem State.rcount_threads (s : State) (r : RName) : (s.rcount r).threads = s.threads := rfl
@[simp] theorem State.rcount_tiles (s : State) (r : RName) : (s.rcount r).tiles = s.tiles := rfl
@[simp] theorem State.rcount_ctlb (s : State) (r : RName) : (s.rcount r).ctlb = s.ctlb := rfl
@[simp] theorem State.rcount_l2 (s : State) (r : RName) : (s.rcount r).l2 = s.l2 := rfl
@[simp] theorem State.rcount_mem (s : State) (r : RName) : (s.rcount r).mem = s.mem := rfl
@[simp] theorem State.rcount_gran (s : State) (r : RName) : (s.rcount r).gran = s.gran := rfl
@[simp] theorem State.rcount_ue (s : State) (r : RName) : (s.rcount r).ue = s.ue := rfl
@[simp] theorem State.rcount_weak (s : State) (r : RName) : (s.rcount r).weak = s.weak := rfl
@[simp] theorem State.rcount_sramErr (s : State) (r : RName) : (s.rcount r).sramErr = s.sramErr := rfl
@[simp] theorem State.rcount_busWaits (s : State) (r : RName) : (s.rcount r).busWaits = s.busWaits := rfl
@[simp] theorem State.rcount_posted (s : State) (r : RName) : (s.rcount r).posted = s.posted := rfl
@[simp] theorem State.rcount_rawWaits (s : State) (r : RName) : (s.rcount r).rawWaits = s.rawWaits := rfl
@[simp] theorem State.rcount_channels (s : State) (r : RName) : (s.rcount r).channels = s.channels := rfl
@[simp] theorem State.rcount_gateOld (s : State) (r : RName) : (s.rcount r).gateOld = s.gateOld := rfl
@[simp] theorem State.rcount_gateMark (s : State) (r : RName) : (s.rcount r).gateMark = s.gateMark := rfl
@[simp] theorem State.rcount_rawStopped (s : State) (r : RName) : (s.rcount r).rawStopped = s.rawStopped := rfl
@[simp] theorem State.rcount_invals (s : State) (r : RName) : (s.rcount r).invals = s.invals := rfl
@[simp] theorem State.rcount_etch (s : State) (r : RName) : (s.rcount r).etch = s.etch := rfl
@[simp] theorem State.rcount_drive0 (s : State) (r : RName) : (s.rcount r).drive0 = s.drive0 := rfl
@[simp] theorem State.rcount_drive1 (s : State) (r : RName) : (s.rcount r).drive1 = s.drive1 := rfl
@[simp] theorem State.rcount_ports (s : State) (r : RName) : (s.rcount r).ports = s.ports := rfl
@[simp] theorem State.rcount_pools (s : State) (r : RName) : (s.rcount r).pools = s.pools := rfl
@[simp] theorem State.rcount_keys (s : State) (r : RName) : (s.rcount r).keys = s.keys := rfl
@[simp] theorem State.rcount_stagedKey (s : State) (r : RName) : (s.rcount r).stagedKey = s.stagedKey := rfl
@[simp] theorem State.rcount_stagedIv (s : State) (r : RName) : (s.rcount r).stagedIv = s.stagedIv := rfl
@[simp] theorem State.rcount_sudon (s : State) (r : RName) : (s.rcount r).sudon = s.sudon := rfl
@[simp] theorem State.rcount_bellows (s : State) (r : RName) : (s.rcount r).bellows = s.bellows := rfl
@[simp] theorem State.rcount_cal (s : State) (r : RName) : (s.rcount r).cal = s.cal := rfl
@[simp] theorem State.rcount_recorder (s : State) (r : RName) : (s.rcount r).recorder = s.recorder := rfl
@[simp] theorem State.rcount_dbg (s : State) (r : RName) : (s.rcount r).dbg = s.dbg := rfl
@[simp] theorem State.rcount_boot (s : State) (r : RName) : (s.rcount r).boot = s.boot := rfl
@[simp] theorem State.rcount_msix (s : State) (r : RName) : (s.rcount r).msix = s.msix := rfl
@[simp] theorem State.rcount_out (s : State) (r : RName) : (s.rcount r).out = s.out := rfl

/-! ### setGranule -/

@[simp] theorem State.setGranule_pending (s : State) (g : Nat) (x : Granule) : (s.setGranule g x).pending = s.pending := rfl
@[simp] theorem State.setGranule_i20 (s : State) (g : Nat) (x : Granule) : (s.setGranule g x).i20 = s.i20 := rfl
@[simp] theorem State.setGranule_straps (s : State) (g : Nat) (x : Granule) : (s.setGranule g x).straps = s.straps := rfl
@[simp] theorem State.setGranule_fuseDebug (s : State) (g : Nat) (x : Granule) : (s.setGranule g x).fuseDebug = s.fuseDebug := rfl
@[simp] theorem State.setGranule_keyHash (s : State) (g : Nat) (x : Granule) : (s.setGranule g x).keyHash = s.keyHash := rfl
@[simp] theorem State.setGranule_timeNow (s : State) (g : Nat) (x : Granule) : (s.setGranule g x).timeNow = s.timeNow := rfl
@[simp] theorem State.setGranule_fresh (s : State) (g : Nat) (x : Granule) : (s.setGranule g x).fresh = s.fresh := rfl
@[simp] theorem State.setGranule_halted (s : State) (g : Nat) (x : Granule) : (s.setGranule g x).halted = s.halted := rfl
@[simp] theorem State.setGranule_thermTrip (s : State) (g : Nat) (x : Granule) : (s.setGranule g x).thermTrip = s.thermTrip := rfl
@[simp] theorem State.setGranule_threads (s : State) (g : Nat) (x : Granule) : (s.setGranule g x).threads = s.threads := rfl
@[simp] theorem State.setGranule_tiles (s : State) (g : Nat) (x : Granule) : (s.setGranule g x).tiles = s.tiles := rfl
@[simp] theorem State.setGranule_ctlb (s : State) (g : Nat) (x : Granule) : (s.setGranule g x).ctlb = s.ctlb := rfl
@[simp] theorem State.setGranule_l2 (s : State) (g : Nat) (x : Granule) : (s.setGranule g x).l2 = s.l2 := rfl
@[simp] theorem State.setGranule_ue (s : State) (g : Nat) (x : Granule) : (s.setGranule g x).ue = s.ue := rfl
@[simp] theorem State.setGranule_weak (s : State) (g : Nat) (x : Granule) : (s.setGranule g x).weak = s.weak := rfl
@[simp] theorem State.setGranule_sramErr (s : State) (g : Nat) (x : Granule) : (s.setGranule g x).sramErr = s.sramErr := rfl
@[simp] theorem State.setGranule_busWaits (s : State) (g : Nat) (x : Granule) : (s.setGranule g x).busWaits = s.busWaits := rfl
@[simp] theorem State.setGranule_posted (s : State) (g : Nat) (x : Granule) : (s.setGranule g x).posted = s.posted := rfl
@[simp] theorem State.setGranule_rawWaits (s : State) (g : Nat) (x : Granule) : (s.setGranule g x).rawWaits = s.rawWaits := rfl
@[simp] theorem State.setGranule_channels (s : State) (g : Nat) (x : Granule) : (s.setGranule g x).channels = s.channels := rfl
@[simp] theorem State.setGranule_regs (s : State) (g : Nat) (x : Granule) : (s.setGranule g x).regs = s.regs := rfl
@[simp] theorem State.setGranule_gateOld (s : State) (g : Nat) (x : Granule) : (s.setGranule g x).gateOld = s.gateOld := rfl
@[simp] theorem State.setGranule_gateMark (s : State) (g : Nat) (x : Granule) : (s.setGranule g x).gateMark = s.gateMark := rfl
@[simp] theorem State.setGranule_rawStopped (s : State) (g : Nat) (x : Granule) : (s.setGranule g x).rawStopped = s.rawStopped := rfl
@[simp] theorem State.setGranule_invals (s : State) (g : Nat) (x : Granule) : (s.setGranule g x).invals = s.invals := rfl
@[simp] theorem State.setGranule_etch (s : State) (g : Nat) (x : Granule) : (s.setGranule g x).etch = s.etch := rfl
@[simp] theorem State.setGranule_drive0 (s : State) (g : Nat) (x : Granule) : (s.setGranule g x).drive0 = s.drive0 := rfl
@[simp] theorem State.setGranule_drive1 (s : State) (g : Nat) (x : Granule) : (s.setGranule g x).drive1 = s.drive1 := rfl
@[simp] theorem State.setGranule_ports (s : State) (g : Nat) (x : Granule) : (s.setGranule g x).ports = s.ports := rfl
@[simp] theorem State.setGranule_pools (s : State) (g : Nat) (x : Granule) : (s.setGranule g x).pools = s.pools := rfl
@[simp] theorem State.setGranule_keys (s : State) (g : Nat) (x : Granule) : (s.setGranule g x).keys = s.keys := rfl
@[simp] theorem State.setGranule_stagedKey (s : State) (g : Nat) (x : Granule) : (s.setGranule g x).stagedKey = s.stagedKey := rfl
@[simp] theorem State.setGranule_stagedIv (s : State) (g : Nat) (x : Granule) : (s.setGranule g x).stagedIv = s.stagedIv := rfl
@[simp] theorem State.setGranule_sudon (s : State) (g : Nat) (x : Granule) : (s.setGranule g x).sudon = s.sudon := rfl
@[simp] theorem State.setGranule_bellows (s : State) (g : Nat) (x : Granule) : (s.setGranule g x).bellows = s.bellows := rfl
@[simp] theorem State.setGranule_cal (s : State) (g : Nat) (x : Granule) : (s.setGranule g x).cal = s.cal := rfl
@[simp] theorem State.setGranule_recorder (s : State) (g : Nat) (x : Granule) : (s.setGranule g x).recorder = s.recorder := rfl
@[simp] theorem State.setGranule_dbg (s : State) (g : Nat) (x : Granule) : (s.setGranule g x).dbg = s.dbg := rfl
@[simp] theorem State.setGranule_boot (s : State) (g : Nat) (x : Granule) : (s.setGranule g x).boot = s.boot := rfl
@[simp] theorem State.setGranule_msix (s : State) (g : Nat) (x : Granule) : (s.setGranule g x).msix = s.msix := rfl
@[simp] theorem State.setGranule_out (s : State) (g : Nat) (x : Granule) : (s.setGranule g x).out = s.out := rfl

/-! ### setPower -/

@[simp] theorem State.setPower_pending (s : State) (d : Nat) (p : Power) : (s.setPower d p).pending = s.pending := rfl
@[simp] theorem State.setPower_i20 (s : State) (d : Nat) (p : Power) : (s.setPower d p).i20 = s.i20 := rfl
@[simp] theorem State.setPower_straps (s : State) (d : Nat) (p : Power) : (s.setPower d p).straps = s.straps := rfl
@[simp] theorem State.setPower_fuseDebug (s : State) (d : Nat) (p : Power) : (s.setPower d p).fuseDebug = s.fuseDebug := rfl
@[simp] theorem State.setPower_keyHash (s : State) (d : Nat) (p : Power) : (s.setPower d p).keyHash = s.keyHash := rfl
@[simp] theorem State.setPower_timeNow (s : State) (d : Nat) (p : Power) : (s.setPower d p).timeNow = s.timeNow := rfl
@[simp] theorem State.setPower_fresh (s : State) (d : Nat) (p : Power) : (s.setPower d p).fresh = s.fresh := rfl
@[simp] theorem State.setPower_halted (s : State) (d : Nat) (p : Power) : (s.setPower d p).halted = s.halted := rfl
@[simp] theorem State.setPower_thermTrip (s : State) (d : Nat) (p : Power) : (s.setPower d p).thermTrip = s.thermTrip := rfl
@[simp] theorem State.setPower_threads (s : State) (d : Nat) (p : Power) : (s.setPower d p).threads = s.threads := rfl
@[simp] theorem State.setPower_tiles (s : State) (d : Nat) (p : Power) : (s.setPower d p).tiles = s.tiles := rfl
@[simp] theorem State.setPower_ctlb (s : State) (d : Nat) (p : Power) : (s.setPower d p).ctlb = s.ctlb := rfl
@[simp] theorem State.setPower_l2 (s : State) (d : Nat) (p : Power) : (s.setPower d p).l2 = s.l2 := rfl
@[simp] theorem State.setPower_mem (s : State) (d : Nat) (p : Power) : (s.setPower d p).mem = s.mem := rfl
@[simp] theorem State.setPower_gran (s : State) (d : Nat) (p : Power) : (s.setPower d p).gran = s.gran := rfl
@[simp] theorem State.setPower_ue (s : State) (d : Nat) (p : Power) : (s.setPower d p).ue = s.ue := rfl
@[simp] theorem State.setPower_weak (s : State) (d : Nat) (p : Power) : (s.setPower d p).weak = s.weak := rfl
@[simp] theorem State.setPower_sramErr (s : State) (d : Nat) (p : Power) : (s.setPower d p).sramErr = s.sramErr := rfl
@[simp] theorem State.setPower_busWaits (s : State) (d : Nat) (p : Power) : (s.setPower d p).busWaits = s.busWaits := rfl
@[simp] theorem State.setPower_posted (s : State) (d : Nat) (p : Power) : (s.setPower d p).posted = s.posted := rfl
@[simp] theorem State.setPower_rawWaits (s : State) (d : Nat) (p : Power) : (s.setPower d p).rawWaits = s.rawWaits := rfl
@[simp] theorem State.setPower_channels (s : State) (d : Nat) (p : Power) : (s.setPower d p).channels = s.channels := rfl
@[simp] theorem State.setPower_regs (s : State) (d : Nat) (p : Power) : (s.setPower d p).regs = s.regs := rfl
@[simp] theorem State.setPower_gateOld (s : State) (d : Nat) (p : Power) : (s.setPower d p).gateOld = s.gateOld := rfl
@[simp] theorem State.setPower_gateMark (s : State) (d : Nat) (p : Power) : (s.setPower d p).gateMark = s.gateMark := rfl
@[simp] theorem State.setPower_rawStopped (s : State) (d : Nat) (p : Power) : (s.setPower d p).rawStopped = s.rawStopped := rfl
@[simp] theorem State.setPower_invals (s : State) (d : Nat) (p : Power) : (s.setPower d p).invals = s.invals := rfl
@[simp] theorem State.setPower_etch (s : State) (d : Nat) (p : Power) : (s.setPower d p).etch = s.etch := rfl
@[simp] theorem State.setPower_drive0 (s : State) (d : Nat) (p : Power) : (s.setPower d p).drive0 = s.drive0 := rfl
@[simp] theorem State.setPower_drive1 (s : State) (d : Nat) (p : Power) : (s.setPower d p).drive1 = s.drive1 := rfl
@[simp] theorem State.setPower_ports (s : State) (d : Nat) (p : Power) : (s.setPower d p).ports = s.ports := rfl
@[simp] theorem State.setPower_pools (s : State) (d : Nat) (p : Power) : (s.setPower d p).pools = s.pools := rfl
@[simp] theorem State.setPower_keys (s : State) (d : Nat) (p : Power) : (s.setPower d p).keys = s.keys := rfl
@[simp] theorem State.setPower_stagedKey (s : State) (d : Nat) (p : Power) : (s.setPower d p).stagedKey = s.stagedKey := rfl
@[simp] theorem State.setPower_stagedIv (s : State) (d : Nat) (p : Power) : (s.setPower d p).stagedIv = s.stagedIv := rfl
@[simp] theorem State.setPower_sudon (s : State) (d : Nat) (p : Power) : (s.setPower d p).sudon = s.sudon := rfl
@[simp] theorem State.setPower_cal (s : State) (d : Nat) (p : Power) : (s.setPower d p).cal = s.cal := rfl
@[simp] theorem State.setPower_recorder (s : State) (d : Nat) (p : Power) : (s.setPower d p).recorder = s.recorder := rfl
@[simp] theorem State.setPower_dbg (s : State) (d : Nat) (p : Power) : (s.setPower d p).dbg = s.dbg := rfl
@[simp] theorem State.setPower_boot (s : State) (d : Nat) (p : Power) : (s.setPower d p).boot = s.boot := rfl
@[simp] theorem State.setPower_msix (s : State) (d : Nat) (p : Power) : (s.setPower d p).msix = s.msix := rfl
@[simp] theorem State.setPower_out (s : State) (d : Nat) (p : Power) : (s.setPower d p).out = s.out := rfl

/-! ### dbgAnswer -/

@[simp] theorem State.dbgAnswer_pending (s : State) (k : Nat) (v : Word) : (s.dbgAnswer k v).pending = s.pending := rfl
@[simp] theorem State.dbgAnswer_i20 (s : State) (k : Nat) (v : Word) : (s.dbgAnswer k v).i20 = s.i20 := rfl
@[simp] theorem State.dbgAnswer_straps (s : State) (k : Nat) (v : Word) : (s.dbgAnswer k v).straps = s.straps := rfl
@[simp] theorem State.dbgAnswer_fuseDebug (s : State) (k : Nat) (v : Word) : (s.dbgAnswer k v).fuseDebug = s.fuseDebug := rfl
@[simp] theorem State.dbgAnswer_keyHash (s : State) (k : Nat) (v : Word) : (s.dbgAnswer k v).keyHash = s.keyHash := rfl
@[simp] theorem State.dbgAnswer_timeNow (s : State) (k : Nat) (v : Word) : (s.dbgAnswer k v).timeNow = s.timeNow := rfl
@[simp] theorem State.dbgAnswer_fresh (s : State) (k : Nat) (v : Word) : (s.dbgAnswer k v).fresh = s.fresh := rfl
@[simp] theorem State.dbgAnswer_halted (s : State) (k : Nat) (v : Word) : (s.dbgAnswer k v).halted = s.halted := rfl
@[simp] theorem State.dbgAnswer_thermTrip (s : State) (k : Nat) (v : Word) : (s.dbgAnswer k v).thermTrip = s.thermTrip := rfl
@[simp] theorem State.dbgAnswer_threads (s : State) (k : Nat) (v : Word) : (s.dbgAnswer k v).threads = s.threads := rfl
@[simp] theorem State.dbgAnswer_tiles (s : State) (k : Nat) (v : Word) : (s.dbgAnswer k v).tiles = s.tiles := rfl
@[simp] theorem State.dbgAnswer_ctlb (s : State) (k : Nat) (v : Word) : (s.dbgAnswer k v).ctlb = s.ctlb := rfl
@[simp] theorem State.dbgAnswer_l2 (s : State) (k : Nat) (v : Word) : (s.dbgAnswer k v).l2 = s.l2 := rfl
@[simp] theorem State.dbgAnswer_mem (s : State) (k : Nat) (v : Word) : (s.dbgAnswer k v).mem = s.mem := rfl
@[simp] theorem State.dbgAnswer_gran (s : State) (k : Nat) (v : Word) : (s.dbgAnswer k v).gran = s.gran := rfl
@[simp] theorem State.dbgAnswer_ue (s : State) (k : Nat) (v : Word) : (s.dbgAnswer k v).ue = s.ue := rfl
@[simp] theorem State.dbgAnswer_weak (s : State) (k : Nat) (v : Word) : (s.dbgAnswer k v).weak = s.weak := rfl
@[simp] theorem State.dbgAnswer_sramErr (s : State) (k : Nat) (v : Word) : (s.dbgAnswer k v).sramErr = s.sramErr := rfl
@[simp] theorem State.dbgAnswer_busWaits (s : State) (k : Nat) (v : Word) : (s.dbgAnswer k v).busWaits = s.busWaits := rfl
@[simp] theorem State.dbgAnswer_posted (s : State) (k : Nat) (v : Word) : (s.dbgAnswer k v).posted = s.posted := rfl
@[simp] theorem State.dbgAnswer_rawWaits (s : State) (k : Nat) (v : Word) : (s.dbgAnswer k v).rawWaits = s.rawWaits := rfl
@[simp] theorem State.dbgAnswer_channels (s : State) (k : Nat) (v : Word) : (s.dbgAnswer k v).channels = s.channels := rfl
@[simp] theorem State.dbgAnswer_regs (s : State) (k : Nat) (v : Word) : (s.dbgAnswer k v).regs = s.regs := rfl
@[simp] theorem State.dbgAnswer_gateOld (s : State) (k : Nat) (v : Word) : (s.dbgAnswer k v).gateOld = s.gateOld := rfl
@[simp] theorem State.dbgAnswer_gateMark (s : State) (k : Nat) (v : Word) : (s.dbgAnswer k v).gateMark = s.gateMark := rfl
@[simp] theorem State.dbgAnswer_rawStopped (s : State) (k : Nat) (v : Word) : (s.dbgAnswer k v).rawStopped = s.rawStopped := rfl
@[simp] theorem State.dbgAnswer_invals (s : State) (k : Nat) (v : Word) : (s.dbgAnswer k v).invals = s.invals := rfl
@[simp] theorem State.dbgAnswer_etch (s : State) (k : Nat) (v : Word) : (s.dbgAnswer k v).etch = s.etch := rfl
@[simp] theorem State.dbgAnswer_drive0 (s : State) (k : Nat) (v : Word) : (s.dbgAnswer k v).drive0 = s.drive0 := rfl
@[simp] theorem State.dbgAnswer_drive1 (s : State) (k : Nat) (v : Word) : (s.dbgAnswer k v).drive1 = s.drive1 := rfl
@[simp] theorem State.dbgAnswer_ports (s : State) (k : Nat) (v : Word) : (s.dbgAnswer k v).ports = s.ports := rfl
@[simp] theorem State.dbgAnswer_pools (s : State) (k : Nat) (v : Word) : (s.dbgAnswer k v).pools = s.pools := rfl
@[simp] theorem State.dbgAnswer_keys (s : State) (k : Nat) (v : Word) : (s.dbgAnswer k v).keys = s.keys := rfl
@[simp] theorem State.dbgAnswer_stagedKey (s : State) (k : Nat) (v : Word) : (s.dbgAnswer k v).stagedKey = s.stagedKey := rfl
@[simp] theorem State.dbgAnswer_stagedIv (s : State) (k : Nat) (v : Word) : (s.dbgAnswer k v).stagedIv = s.stagedIv := rfl
@[simp] theorem State.dbgAnswer_sudon (s : State) (k : Nat) (v : Word) : (s.dbgAnswer k v).sudon = s.sudon := rfl
@[simp] theorem State.dbgAnswer_bellows (s : State) (k : Nat) (v : Word) : (s.dbgAnswer k v).bellows = s.bellows := rfl
@[simp] theorem State.dbgAnswer_cal (s : State) (k : Nat) (v : Word) : (s.dbgAnswer k v).cal = s.cal := rfl
@[simp] theorem State.dbgAnswer_recorder (s : State) (k : Nat) (v : Word) : (s.dbgAnswer k v).recorder = s.recorder := rfl
@[simp] theorem State.dbgAnswer_boot (s : State) (k : Nat) (v : Word) : (s.dbgAnswer k v).boot = s.boot := rfl
@[simp] theorem State.dbgAnswer_msix (s : State) (k : Nat) (v : Word) : (s.dbgAnswer k v).msix = s.msix := rfl
@[simp] theorem State.dbgAnswer_out (s : State) (k : Nat) (v : Word) : (s.dbgAnswer k v).out = s.out := rfl

/-! ### Reading back -/

theorem Tid.toNat_inj {a b : Tid} (h : a.toNat = b.toNat) : a = b := BitVec.eq_of_toNat_eq h

@[simp] theorem State.setThr_thr (s : State) (t : Tid) (th : Thread) (x : Tid) : (s.setThr t th).thr x = if x = t then th else s.thr x := by
  simp only [State.thr, State.setThr, Map.get_set]
  by_cases h : x = t
  · subst h; simp
  · rw [if_neg h, if_neg (fun e => h (Tid.toNat_inj e))]

@[simp] theorem State.modThr_thr (s : State) (t : Tid) (f : Thread → Thread) (x : Tid) :
    (s.modThr t f).thr x = if x = t then f (s.thr t) else s.thr x := State.setThr_thr s t _ x

@[simp] theorem State.setTile_tile (s : State) (n : Nat) (x : Tile) (m : Nat) : (s.setTile n x).tile m = if m = n then x else s.tile m := by
  simp [State.tile, State.setTile]

@[simp] theorem State.setPort_port (s : State) (n : Nat) (p : Port) (m : Nat) : (s.setPort n p).port m = if m = n then p else s.port m := by
  simp [State.port, State.setPort]

@[simp] theorem State.modPort_port (s : State) (n : Nat) (f : Port → Port) (m : Nat) :
    (s.modPort n f).port m = if m = n then f (s.port n) else s.port m := State.setPort_port s n _ m

/-- Reading a register after a write of one: the value at the same address, and what it read elsewhere. -/
theorem State.rset_rget (s : State) (r : RName) (v : Word) (q : RName) (h : q.addr = r.addr → s.resetOf q = s.resetOf r) :
    (s.rset r v).rget q = if q.addr = r.addr then v else s.rget q := by
  simp only [State.rget, State.rset, State.resetOf]
  by_cases e : q.addr = r.addr
  · have h' := h e
    simp only [State.resetOf] at h'
    rw [h', e, Map.get_put]
  · unfold Map.put
    split
    · simp only [Map.get, Map.find_erase]
      rw [if_neg e]
    · rw [Map.get_set, if_neg e]

@[simp] theorem State.rset_rget_self (s : State) (r : RName) (v : Word) : (s.rset r v).rget r = v := by
  rw [State.rset_rget s r v r (fun _ => rfl)]; simp

@[simp] theorem State.setTile_thr (s : State) (n : Nat) (x : Tile) (t : Tid) : (s.setTile n x).thr t = s.thr t := rfl
@[simp] theorem State.setPort_thr (s : State) (n : Nat) (p : Port) (t : Tid) : (s.setPort n p).thr t = s.thr t := rfl
@[simp] theorem State.modPort_thr (s : State) (n : Nat) (f : Port → Port) (t : Tid) : (s.modPort n f).thr t = s.thr t := rfl
@[simp] theorem State.rset_thr (s : State) (r : RName) (v : Word) (t : Tid) : (s.rset r v).thr t = s.thr t := rfl
@[simp] theorem State.rsetField_thr (s : State) (r : RName) (lo w x : Nat) (t : Tid) : (s.rsetField r lo w x).thr t = s.thr t := rfl
@[simp] theorem State.rcount_thr (s : State) (r : RName) (t : Tid) : (s.rcount r).thr t = s.thr t := rfl
@[simp] theorem State.setGranule_thr (s : State) (g : Nat) (x : Granule) (t : Tid) : (s.setGranule g x).thr t = s.thr t := rfl
@[simp] theorem State.setPower_thr (s : State) (d : Nat) (p : Power) (t : Tid) : (s.setPower d p).thr t = s.thr t := rfl
@[simp] theorem State.dbgAnswer_thr (s : State) (k : Nat) (v : Word) (t : Tid) : (s.dbgAnswer k v).thr t = s.thr t := rfl
@[simp] theorem State.setThr_tile (s : State) (t₀ : Tid) (th : Thread) (t : Nat) : (s.setThr t₀ th).tile t = s.tile t := rfl
@[simp] theorem State.modThr_tile (s : State) (t₀ : Tid) (f : Thread → Thread) (t : Nat) : (s.modThr t₀ f).tile t = s.tile t := rfl
@[simp] theorem State.setPort_tile (s : State) (n : Nat) (p : Port) (t : Nat) : (s.setPort n p).tile t = s.tile t := rfl
@[simp] theorem State.modPort_tile (s : State) (n : Nat) (f : Port → Port) (t : Nat) : (s.modPort n f).tile t = s.tile t := rfl
@[simp] theorem State.rset_tile (s : State) (r : RName) (v : Word) (t : Nat) : (s.rset r v).tile t = s.tile t := rfl
@[simp] theorem State.rsetField_tile (s : State) (r : RName) (lo w x : Nat) (t : Nat) : (s.rsetField r lo w x).tile t = s.tile t := rfl
@[simp] theorem State.rcount_tile (s : State) (r : RName) (t : Nat) : (s.rcount r).tile t = s.tile t := rfl
@[simp] theorem State.setGranule_tile (s : State) (g : Nat) (x : Granule) (t : Nat) : (s.setGranule g x).tile t = s.tile t := rfl
@[simp] theorem State.setPower_tile (s : State) (d : Nat) (p : Power) (t : Nat) : (s.setPower d p).tile t = s.tile t := rfl
@[simp] theorem State.dbgAnswer_tile (s : State) (k : Nat) (v : Word) (t : Nat) : (s.dbgAnswer k v).tile t = s.tile t := rfl
@[simp] theorem State.setThr_port (s : State) (t₀ : Tid) (th : Thread) (t : Nat) : (s.setThr t₀ th).port t = s.port t := rfl
@[simp] theorem State.modThr_port (s : State) (t₀ : Tid) (f : Thread → Thread) (t : Nat) : (s.modThr t₀ f).port t = s.port t := rfl
@[simp] theorem State.setTile_port (s : State) (n : Nat) (x : Tile) (t : Nat) : (s.setTile n x).port t = s.port t := rfl
@[simp] theorem State.rset_port (s : State) (r : RName) (v : Word) (t : Nat) : (s.rset r v).port t = s.port t := rfl
@[simp] theorem State.rsetField_port (s : State) (r : RName) (lo w x : Nat) (t : Nat) : (s.rsetField r lo w x).port t = s.port t := rfl
@[simp] theorem State.rcount_port (s : State) (r : RName) (t : Nat) : (s.rcount r).port t = s.port t := rfl
@[simp] theorem State.setGranule_port (s : State) (g : Nat) (x : Granule) (t : Nat) : (s.setGranule g x).port t = s.port t := rfl
@[simp] theorem State.setPower_port (s : State) (d : Nat) (p : Power) (t : Nat) : (s.setPower d p).port t = s.port t := rfl
@[simp] theorem State.dbgAnswer_port (s : State) (k : Nat) (v : Word) (t : Nat) : (s.dbgAnswer k v).port t = s.port t := rfl

/-! ### Registers of a thread -/

/-- Reading a general register after a write of one (R35, R61, R63). -/
@[simp] theorem Thread.setReg_reg (th : Thread) (rd : Reg) (c : Cap) (r : Reg) :
    (th.setReg rd c).reg r = if r = rd ∧ r ≠ 0 then c else th.reg r := by
  unfold Thread.setReg Thread.reg
  by_cases hr : r = 0
  · subst hr; simp
  · by_cases hd : rd = 0
    · subst hd; simp
    · simp only [hr, hd, if_false, Map.get_put, ne_eq, not_false_eq_true, and_true]
      by_cases e : r = rd
      · subst e; simp
      · rw [if_neg e, if_neg (fun h => e (BitVec.eq_of_toNat_eq h))]

@[simp] theorem Thread.wrInt_reg (th : Thread) (rd : Reg) (w : Word) (r : Reg) :
    (th.wrInt rd w).reg r = if r = rd ∧ r ≠ 0 then Cap.ofWord w else th.reg r := Thread.setReg_reg th rd _ r

@[simp] theorem Thread.advance_reg (th : Thread) (k : Int) (r : Reg) : (th.advance k).reg r = th.reg r := rfl

@[simp] theorem Thread.reg_zero (th : Thread) : th.reg 0 = Cap.null := rfl

@[simp] theorem Thread.setReg_st (th : Thread) (rd : Reg) (c : Cap) : (th.setReg rd c).st = th.st := by unfold Thread.setReg; split <;> rfl
@[simp] theorem Thread.setReg_pcc (th : Thread) (rd : Reg) (c : Cap) : (th.setReg rd c).pcc = th.pcc := by unfold Thread.setReg; split <;> rfl
@[simp] theorem Thread.setReg_rstack (th : Thread) (rd : Reg) (c : Cap) : (th.setReg rd c).rstack = th.rstack := by unfold Thread.setReg; split <;> rfl
@[simp] theorem Thread.setReg_world (th : Thread) (rd : Reg) (c : Cap) : (th.setReg rd c).world = th.world := by unfold Thread.setReg; split <;> rfl
@[simp] theorem Thread.setReg_level (th : Thread) (rd : Reg) (c : Cap) : (th.setReg rd c).level = th.level := by unfold Thread.setReg; split <;> rfl
@[simp] theorem Thread.setReg_tgrp (th : Thread) (rd : Reg) (c : Cap) : (th.setReg rd c).tgrp = th.tgrp := by unfold Thread.setReg; split <;> rfl
@[simp] theorem Thread.setReg_tgrpP (th : Thread) (rd : Reg) (c : Cap) : (th.setReg rd c).tgrpP = th.tgrpP := by unfold Thread.setReg; split <;> rfl
@[simp] theorem Thread.setReg_rsMode (th : Thread) (rd : Reg) (c : Cap) : (th.setReg rd c).rsMode = th.rsMode := by unfold Thread.setReg; split <;> rfl
@[simp] theorem Thread.setReg_rsModeP (th : Thread) (rd : Reg) (c : Cap) : (th.setReg rd c).rsModeP = th.rsModeP := by unfold Thread.setReg; split <;> rfl
@[simp] theorem Thread.setReg_mctl (th : Thread) (rd : Reg) (c : Cap) : (th.setReg rd c).mctl = th.mctl := by unfold Thread.setReg; split <;> rfl
@[simp] theorem Thread.setReg_pkeys (th : Thread) (rd : Reg) (c : Cap) : (th.setReg rd c).pkeys = th.pkeys := by unfold Thread.setReg; split <;> rfl
@[simp] theorem Thread.setReg_ipl (th : Thread) (rd : Reg) (c : Cap) : (th.setReg rd c).ipl = th.ipl := by unfold Thread.setReg; split <;> rfl
@[simp] theorem Thread.setReg_iplP (th : Thread) (rd : Reg) (c : Cap) : (th.setReg rd c).iplP = th.iplP := by unfold Thread.setReg; split <;> rfl
@[simp] theorem Thread.setReg_trootM (th : Thread) (rd : Reg) (c : Cap) : (th.setReg rd c).trootM = th.trootM := by unfold Thread.setReg; split <;> rfl
@[simp] theorem Thread.setReg_trootMP (th : Thread) (rd : Reg) (c : Cap) : (th.setReg rd c).trootMP = th.trootMP := by unfold Thread.setReg; split <;> rfl
@[simp] theorem Thread.setReg_trootV (th : Thread) (rd : Reg) (c : Cap) : (th.setReg rd c).trootV = th.trootV := by unfold Thread.setReg; split <;> rfl
@[simp] theorem Thread.setReg_trootVP (th : Thread) (rd : Reg) (c : Cap) : (th.setReg rd c).trootVP = th.trootVP := by unfold Thread.setReg; split <;> rfl
@[simp] theorem Thread.setReg_pklock (th : Thread) (rd : Reg) (c : Cap) : (th.setReg rd c).pklock = th.pklock := by unfold Thread.setReg; split <;> rfl
@[simp] theorem Thread.setReg_pklockP (th : Thread) (rd : Reg) (c : Cap) : (th.setReg rd c).pklockP = th.pklockP := by unfold Thread.setReg; split <;> rfl
@[simp] theorem Thread.setReg_evecM (th : Thread) (rd : Reg) (c : Cap) : (th.setReg rd c).evecM = th.evecM := by unfold Thread.setReg; split <;> rfl
@[simp] theorem Thread.setReg_stkM (th : Thread) (rd : Reg) (c : Cap) : (th.setReg rd c).stkM = th.stkM := by unfold Thread.setReg; split <;> rfl
@[simp] theorem Thread.setReg_estkM (th : Thread) (rd : Reg) (c : Cap) : (th.setReg rd c).estkM = th.estkM := by unfold Thread.setReg; split <;> rfl
@[simp] theorem Thread.setReg_evecV (th : Thread) (rd : Reg) (c : Cap) : (th.setReg rd c).evecV = th.evecV := by unfold Thread.setReg; split <;> rfl
@[simp] theorem Thread.setReg_stkV (th : Thread) (rd : Reg) (c : Cap) : (th.setReg rd c).stkV = th.stkV := by unfold Thread.setReg; split <;> rfl
@[simp] theorem Thread.setReg_estkV (th : Thread) (rd : Reg) (c : Cap) : (th.setReg rd c).estkV = th.estkV := by unfold Thread.setReg; split <;> rfl
@[simp] theorem Thread.setReg_tstk (th : Thread) (rd : Reg) (c : Cap) : (th.setReg rd c).tstk = th.tstk := by unfold Thread.setReg; split <;> rfl
@[simp] theorem Thread.setReg_testk (th : Thread) (rd : Reg) (c : Cap) : (th.setReg rd c).testk = th.testk := by unfold Thread.setReg; split <;> rfl
@[simp] theorem Thread.setReg_issued (th : Thread) (rd : Reg) (c : Cap) : (th.setReg rd c).issued = th.issued := by unfold Thread.setReg; split <;> rfl
@[simp] theorem Thread.setReg_sinceTick (th : Thread) (rd : Reg) (c : Cap) : (th.setReg rd c).sinceTick = th.sinceTick := by unfold Thread.setReg; split <;> rfl
@[simp] theorem Thread.setReg_parkcyc (th : Thread) (rd : Reg) (c : Cap) : (th.setReg rd c).parkcyc = th.parkcyc := by unfold Thread.setReg; split <;> rfl
@[simp] theorem Thread.setReg_excnt (th : Thread) (rd : Reg) (c : Cap) : (th.setReg rd c).excnt = th.excnt := by unfold Thread.setReg; split <;> rfl
@[simp] theorem Thread.setReg_intcnt (th : Thread) (rd : Reg) (c : Cap) : (th.setReg rd c).intcnt = th.intcnt := by unfold Thread.setReg; split <;> rfl
@[simp] theorem Thread.setReg_tlbmiss (th : Thread) (rd : Reg) (c : Cap) : (th.setReg rd c).tlbmiss = th.tlbmiss := by unfold Thread.setReg; split <;> rfl
@[simp] theorem Thread.setReg_walks (th : Thread) (rd : Reg) (c : Cap) : (th.setReg rd c).walks = th.walks := by unfold Thread.setReg; split <;> rfl
@[simp] theorem Thread.setReg_outs (th : Thread) (rd : Reg) (c : Cap) : (th.setReg rd c).outs = th.outs := by unfold Thread.setReg; split <;> rfl
@[simp] theorem Thread.setReg_stores (th : Thread) (rd : Reg) (c : Cap) : (th.setReg rd c).stores = th.stores := by unfold Thread.setReg; split <;> rfl
@[simp] theorem Thread.setReg_refetch (th : Thread) (rd : Reg) (c : Cap) : (th.setReg rd c).refetch = th.refetch := by unfold Thread.setReg; split <;> rfl
@[simp] theorem Thread.setReg_entry (th : Thread) (rd : Reg) (c : Cap) : (th.setReg rd c).entry = th.entry := by unfold Thread.setReg; split <;> rfl
@[simp] theorem Thread.setReg_plate (th : Thread) (rd : Reg) (c : Cap) : (th.setReg rd c).plate = th.plate := by unfold Thread.setReg; split <;> rfl
@[simp] theorem Thread.setReg_lastPort (th : Thread) (rd : Reg) (c : Cap) : (th.setReg rd c).lastPort = th.lastPort := by unfold Thread.setReg; split <;> rfl
@[simp] theorem Thread.setReg_brkClaim (th : Thread) (rd : Reg) (c : Cap) : (th.setReg rd c).brkClaim = th.brkClaim := by unfold Thread.setReg; split <;> rfl
@[simp] theorem Thread.setReg_stopReq (th : Thread) (rd : Reg) (c : Cap) : (th.setReg rd c).stopReq = th.stopReq := by unfold Thread.setReg; split <;> rfl
@[simp] theorem Thread.setReg_stepping (th : Thread) (rd : Reg) (c : Cap) : (th.setReg rd c).stepping = th.stepping := by unfold Thread.setReg; split <;> rfl
@[simp] theorem Thread.setReg_resume (th : Thread) (rd : Reg) (c : Cap) : (th.setReg rd c).resume = th.resume := by unfold Thread.setReg; split <;> rfl

@[simp] theorem Thread.wrInt_st (th : Thread) (rd : Reg) (w : Word) : (th.wrInt rd w).st = th.st := Thread.setReg_st th rd _
@[simp] theorem Thread.wrInt_pcc (th : Thread) (rd : Reg) (w : Word) : (th.wrInt rd w).pcc = th.pcc := Thread.setReg_pcc th rd _
@[simp] theorem Thread.wrInt_rstack (th : Thread) (rd : Reg) (w : Word) : (th.wrInt rd w).rstack = th.rstack := Thread.setReg_rstack th rd _
@[simp] theorem Thread.wrInt_world (th : Thread) (rd : Reg) (w : Word) : (th.wrInt rd w).world = th.world := Thread.setReg_world th rd _
@[simp] theorem Thread.wrInt_level (th : Thread) (rd : Reg) (w : Word) : (th.wrInt rd w).level = th.level := Thread.setReg_level th rd _
@[simp] theorem Thread.wrInt_tgrp (th : Thread) (rd : Reg) (w : Word) : (th.wrInt rd w).tgrp = th.tgrp := Thread.setReg_tgrp th rd _
@[simp] theorem Thread.wrInt_tgrpP (th : Thread) (rd : Reg) (w : Word) : (th.wrInt rd w).tgrpP = th.tgrpP := Thread.setReg_tgrpP th rd _
@[simp] theorem Thread.wrInt_rsMode (th : Thread) (rd : Reg) (w : Word) : (th.wrInt rd w).rsMode = th.rsMode := Thread.setReg_rsMode th rd _
@[simp] theorem Thread.wrInt_rsModeP (th : Thread) (rd : Reg) (w : Word) : (th.wrInt rd w).rsModeP = th.rsModeP := Thread.setReg_rsModeP th rd _
@[simp] theorem Thread.wrInt_mctl (th : Thread) (rd : Reg) (w : Word) : (th.wrInt rd w).mctl = th.mctl := Thread.setReg_mctl th rd _
@[simp] theorem Thread.wrInt_pkeys (th : Thread) (rd : Reg) (w : Word) : (th.wrInt rd w).pkeys = th.pkeys := Thread.setReg_pkeys th rd _
@[simp] theorem Thread.wrInt_ipl (th : Thread) (rd : Reg) (w : Word) : (th.wrInt rd w).ipl = th.ipl := Thread.setReg_ipl th rd _
@[simp] theorem Thread.wrInt_iplP (th : Thread) (rd : Reg) (w : Word) : (th.wrInt rd w).iplP = th.iplP := Thread.setReg_iplP th rd _
@[simp] theorem Thread.wrInt_trootM (th : Thread) (rd : Reg) (w : Word) : (th.wrInt rd w).trootM = th.trootM := Thread.setReg_trootM th rd _
@[simp] theorem Thread.wrInt_trootMP (th : Thread) (rd : Reg) (w : Word) : (th.wrInt rd w).trootMP = th.trootMP := Thread.setReg_trootMP th rd _
@[simp] theorem Thread.wrInt_trootV (th : Thread) (rd : Reg) (w : Word) : (th.wrInt rd w).trootV = th.trootV := Thread.setReg_trootV th rd _
@[simp] theorem Thread.wrInt_trootVP (th : Thread) (rd : Reg) (w : Word) : (th.wrInt rd w).trootVP = th.trootVP := Thread.setReg_trootVP th rd _
@[simp] theorem Thread.wrInt_pklock (th : Thread) (rd : Reg) (w : Word) : (th.wrInt rd w).pklock = th.pklock := Thread.setReg_pklock th rd _
@[simp] theorem Thread.wrInt_pklockP (th : Thread) (rd : Reg) (w : Word) : (th.wrInt rd w).pklockP = th.pklockP := Thread.setReg_pklockP th rd _
@[simp] theorem Thread.wrInt_evecM (th : Thread) (rd : Reg) (w : Word) : (th.wrInt rd w).evecM = th.evecM := Thread.setReg_evecM th rd _
@[simp] theorem Thread.wrInt_stkM (th : Thread) (rd : Reg) (w : Word) : (th.wrInt rd w).stkM = th.stkM := Thread.setReg_stkM th rd _
@[simp] theorem Thread.wrInt_estkM (th : Thread) (rd : Reg) (w : Word) : (th.wrInt rd w).estkM = th.estkM := Thread.setReg_estkM th rd _
@[simp] theorem Thread.wrInt_evecV (th : Thread) (rd : Reg) (w : Word) : (th.wrInt rd w).evecV = th.evecV := Thread.setReg_evecV th rd _
@[simp] theorem Thread.wrInt_stkV (th : Thread) (rd : Reg) (w : Word) : (th.wrInt rd w).stkV = th.stkV := Thread.setReg_stkV th rd _
@[simp] theorem Thread.wrInt_estkV (th : Thread) (rd : Reg) (w : Word) : (th.wrInt rd w).estkV = th.estkV := Thread.setReg_estkV th rd _
@[simp] theorem Thread.wrInt_tstk (th : Thread) (rd : Reg) (w : Word) : (th.wrInt rd w).tstk = th.tstk := Thread.setReg_tstk th rd _
@[simp] theorem Thread.wrInt_testk (th : Thread) (rd : Reg) (w : Word) : (th.wrInt rd w).testk = th.testk := Thread.setReg_testk th rd _
@[simp] theorem Thread.wrInt_issued (th : Thread) (rd : Reg) (w : Word) : (th.wrInt rd w).issued = th.issued := Thread.setReg_issued th rd _
@[simp] theorem Thread.wrInt_sinceTick (th : Thread) (rd : Reg) (w : Word) : (th.wrInt rd w).sinceTick = th.sinceTick := Thread.setReg_sinceTick th rd _
@[simp] theorem Thread.wrInt_parkcyc (th : Thread) (rd : Reg) (w : Word) : (th.wrInt rd w).parkcyc = th.parkcyc := Thread.setReg_parkcyc th rd _
@[simp] theorem Thread.wrInt_excnt (th : Thread) (rd : Reg) (w : Word) : (th.wrInt rd w).excnt = th.excnt := Thread.setReg_excnt th rd _
@[simp] theorem Thread.wrInt_intcnt (th : Thread) (rd : Reg) (w : Word) : (th.wrInt rd w).intcnt = th.intcnt := Thread.setReg_intcnt th rd _
@[simp] theorem Thread.wrInt_tlbmiss (th : Thread) (rd : Reg) (w : Word) : (th.wrInt rd w).tlbmiss = th.tlbmiss := Thread.setReg_tlbmiss th rd _
@[simp] theorem Thread.wrInt_walks (th : Thread) (rd : Reg) (w : Word) : (th.wrInt rd w).walks = th.walks := Thread.setReg_walks th rd _
@[simp] theorem Thread.wrInt_outs (th : Thread) (rd : Reg) (w : Word) : (th.wrInt rd w).outs = th.outs := Thread.setReg_outs th rd _
@[simp] theorem Thread.wrInt_stores (th : Thread) (rd : Reg) (w : Word) : (th.wrInt rd w).stores = th.stores := Thread.setReg_stores th rd _
@[simp] theorem Thread.wrInt_refetch (th : Thread) (rd : Reg) (w : Word) : (th.wrInt rd w).refetch = th.refetch := Thread.setReg_refetch th rd _
@[simp] theorem Thread.wrInt_entry (th : Thread) (rd : Reg) (w : Word) : (th.wrInt rd w).entry = th.entry := Thread.setReg_entry th rd _
@[simp] theorem Thread.wrInt_plate (th : Thread) (rd : Reg) (w : Word) : (th.wrInt rd w).plate = th.plate := Thread.setReg_plate th rd _
@[simp] theorem Thread.wrInt_lastPort (th : Thread) (rd : Reg) (w : Word) : (th.wrInt rd w).lastPort = th.lastPort := Thread.setReg_lastPort th rd _
@[simp] theorem Thread.wrInt_brkClaim (th : Thread) (rd : Reg) (w : Word) : (th.wrInt rd w).brkClaim = th.brkClaim := Thread.setReg_brkClaim th rd _
@[simp] theorem Thread.wrInt_stopReq (th : Thread) (rd : Reg) (w : Word) : (th.wrInt rd w).stopReq = th.stopReq := Thread.setReg_stopReq th rd _
@[simp] theorem Thread.wrInt_stepping (th : Thread) (rd : Reg) (w : Word) : (th.wrInt rd w).stepping = th.stepping := Thread.setReg_stepping th rd _
@[simp] theorem Thread.wrInt_resume (th : Thread) (rd : Reg) (w : Word) : (th.wrInt rd w).resume = th.resume := Thread.setReg_resume th rd _

@[simp] theorem Thread.advance_st (th : Thread) (k : Int) : (th.advance k).st = th.st := rfl
@[simp] theorem Thread.advance_regs (th : Thread) (k : Int) : (th.advance k).regs = th.regs := rfl
@[simp] theorem Thread.advance_rstack (th : Thread) (k : Int) : (th.advance k).rstack = th.rstack := rfl
@[simp] theorem Thread.advance_world (th : Thread) (k : Int) : (th.advance k).world = th.world := rfl
@[simp] theorem Thread.advance_level (th : Thread) (k : Int) : (th.advance k).level = th.level := rfl
@[simp] theorem Thread.advance_tgrp (th : Thread) (k : Int) : (th.advance k).tgrp = th.tgrp := rfl
@[simp] theorem Thread.advance_tgrpP (th : Thread) (k : Int) : (th.advance k).tgrpP = th.tgrpP := rfl
@[simp] theorem Thread.advance_rsMode (th : Thread) (k : Int) : (th.advance k).rsMode = th.rsMode := rfl
@[simp] theorem Thread.advance_rsModeP (th : Thread) (k : Int) : (th.advance k).rsModeP = th.rsModeP := rfl
@[simp] theorem Thread.advance_mctl (th : Thread) (k : Int) : (th.advance k).mctl = th.mctl := rfl
@[simp] theorem Thread.advance_pkeys (th : Thread) (k : Int) : (th.advance k).pkeys = th.pkeys := rfl
@[simp] theorem Thread.advance_ipl (th : Thread) (k : Int) : (th.advance k).ipl = th.ipl := rfl
@[simp] theorem Thread.advance_iplP (th : Thread) (k : Int) : (th.advance k).iplP = th.iplP := rfl
@[simp] theorem Thread.advance_trootM (th : Thread) (k : Int) : (th.advance k).trootM = th.trootM := rfl
@[simp] theorem Thread.advance_trootMP (th : Thread) (k : Int) : (th.advance k).trootMP = th.trootMP := rfl
@[simp] theorem Thread.advance_trootV (th : Thread) (k : Int) : (th.advance k).trootV = th.trootV := rfl
@[simp] theorem Thread.advance_trootVP (th : Thread) (k : Int) : (th.advance k).trootVP = th.trootVP := rfl
@[simp] theorem Thread.advance_pklock (th : Thread) (k : Int) : (th.advance k).pklock = th.pklock := rfl
@[simp] theorem Thread.advance_pklockP (th : Thread) (k : Int) : (th.advance k).pklockP = th.pklockP := rfl
@[simp] theorem Thread.advance_evecM (th : Thread) (k : Int) : (th.advance k).evecM = th.evecM := rfl
@[simp] theorem Thread.advance_stkM (th : Thread) (k : Int) : (th.advance k).stkM = th.stkM := rfl
@[simp] theorem Thread.advance_estkM (th : Thread) (k : Int) : (th.advance k).estkM = th.estkM := rfl
@[simp] theorem Thread.advance_evecV (th : Thread) (k : Int) : (th.advance k).evecV = th.evecV := rfl
@[simp] theorem Thread.advance_stkV (th : Thread) (k : Int) : (th.advance k).stkV = th.stkV := rfl
@[simp] theorem Thread.advance_estkV (th : Thread) (k : Int) : (th.advance k).estkV = th.estkV := rfl
@[simp] theorem Thread.advance_tstk (th : Thread) (k : Int) : (th.advance k).tstk = th.tstk := rfl
@[simp] theorem Thread.advance_testk (th : Thread) (k : Int) : (th.advance k).testk = th.testk := rfl
@[simp] theorem Thread.advance_issued (th : Thread) (k : Int) : (th.advance k).issued = th.issued := rfl
@[simp] theorem Thread.advance_sinceTick (th : Thread) (k : Int) : (th.advance k).sinceTick = th.sinceTick := rfl
@[simp] theorem Thread.advance_parkcyc (th : Thread) (k : Int) : (th.advance k).parkcyc = th.parkcyc := rfl
@[simp] theorem Thread.advance_excnt (th : Thread) (k : Int) : (th.advance k).excnt = th.excnt := rfl
@[simp] theorem Thread.advance_intcnt (th : Thread) (k : Int) : (th.advance k).intcnt = th.intcnt := rfl
@[simp] theorem Thread.advance_tlbmiss (th : Thread) (k : Int) : (th.advance k).tlbmiss = th.tlbmiss := rfl
@[simp] theorem Thread.advance_walks (th : Thread) (k : Int) : (th.advance k).walks = th.walks := rfl
@[simp] theorem Thread.advance_parity (th : Thread) (k : Int) : (th.advance k).parity = th.parity := rfl
@[simp] theorem Thread.advance_outs (th : Thread) (k : Int) : (th.advance k).outs = th.outs := rfl
@[simp] theorem Thread.advance_stores (th : Thread) (k : Int) : (th.advance k).stores = th.stores := rfl
@[simp] theorem Thread.advance_refetch (th : Thread) (k : Int) : (th.advance k).refetch = th.refetch := rfl
@[simp] theorem Thread.advance_entry (th : Thread) (k : Int) : (th.advance k).entry = th.entry := rfl
@[simp] theorem Thread.advance_plate (th : Thread) (k : Int) : (th.advance k).plate = th.plate := rfl
@[simp] theorem Thread.advance_lastPort (th : Thread) (k : Int) : (th.advance k).lastPort = th.lastPort := rfl
@[simp] theorem Thread.advance_brkClaim (th : Thread) (k : Int) : (th.advance k).brkClaim = th.brkClaim := rfl
@[simp] theorem Thread.advance_stopReq (th : Thread) (k : Int) : (th.advance k).stopReq = th.stopReq := rfl
@[simp] theorem Thread.advance_stepping (th : Thread) (k : Int) : (th.advance k).stepping = th.stepping := rfl
@[simp] theorem Thread.advance_resume (th : Thread) (k : Int) : (th.advance k).resume = th.resume := rfl

@[simp] theorem Thread.advance_pcc (th : Thread) (k : Int) : (th.advance k).pcc = th.pcc.moveCursor (th.pcc.ea k) := rfl

/-! ### Older loads of a written register (R16, R67) -/

/-- An instruction without a destination drops none. -/
@[simp] theorem Thread.dropOlder_nil (th : Thread) (k : Nat) : th.dropOlder k [] = th := by simp [Thread.dropOlder]

/-- With nothing outstanding there is none to drop. -/
theorem Thread.dropOlder_idle (th : Thread) (k : Nat) (l : List Reg) (h : th.outs = []) : th.dropOlder k l = th := by
  cases th
  simp only at h
  subst h
  rfl

@[simp] theorem Thread.dropOlder_reg (th : Thread) (k : Nat) (l : List Reg) (r : Reg) : (th.dropOlder k l).reg r = th.reg r := rfl
@[simp] theorem Thread.dropOlder_st (th : Thread) (k : Nat) (l : List Reg) : (th.dropOlder k l).st = th.st := rfl
@[simp] theorem Thread.dropOlder_regs (th : Thread) (k : Nat) (l : List Reg) : (th.dropOlder k l).regs = th.regs := rfl
@[simp] theorem Thread.dropOlder_pcc (th : Thread) (k : Nat) (l : List Reg) : (th.dropOlder k l).pcc = th.pcc := rfl
@[simp] theorem Thread.dropOlder_rstack (th : Thread) (k : Nat) (l : List Reg) : (th.dropOlder k l).rstack = th.rstack := rfl
@[simp] theorem Thread.dropOlder_world (th : Thread) (k : Nat) (l : List Reg) : (th.dropOlder k l).world = th.world := rfl
@[simp] theorem Thread.dropOlder_level (th : Thread) (k : Nat) (l : List Reg) : (th.dropOlder k l).level = th.level := rfl
@[simp] theorem Thread.dropOlder_tgrp (th : Thread) (k : Nat) (l : List Reg) : (th.dropOlder k l).tgrp = th.tgrp := rfl
@[simp] theorem Thread.dropOlder_tgrpP (th : Thread) (k : Nat) (l : List Reg) : (th.dropOlder k l).tgrpP = th.tgrpP := rfl
@[simp] theorem Thread.dropOlder_rsMode (th : Thread) (k : Nat) (l : List Reg) : (th.dropOlder k l).rsMode = th.rsMode := rfl
@[simp] theorem Thread.dropOlder_rsModeP (th : Thread) (k : Nat) (l : List Reg) : (th.dropOlder k l).rsModeP = th.rsModeP := rfl
@[simp] theorem Thread.dropOlder_mctl (th : Thread) (k : Nat) (l : List Reg) : (th.dropOlder k l).mctl = th.mctl := rfl
@[simp] theorem Thread.dropOlder_pkeys (th : Thread) (k : Nat) (l : List Reg) : (th.dropOlder k l).pkeys = th.pkeys := rfl
@[simp] theorem Thread.dropOlder_ipl (th : Thread) (k : Nat) (l : List Reg) : (th.dropOlder k l).ipl = th.ipl := rfl
@[simp] theorem Thread.dropOlder_iplP (th : Thread) (k : Nat) (l : List Reg) : (th.dropOlder k l).iplP = th.iplP := rfl
@[simp] theorem Thread.dropOlder_trootM (th : Thread) (k : Nat) (l : List Reg) : (th.dropOlder k l).trootM = th.trootM := rfl
@[simp] theorem Thread.dropOlder_trootMP (th : Thread) (k : Nat) (l : List Reg) : (th.dropOlder k l).trootMP = th.trootMP := rfl
@[simp] theorem Thread.dropOlder_trootV (th : Thread) (k : Nat) (l : List Reg) : (th.dropOlder k l).trootV = th.trootV := rfl
@[simp] theorem Thread.dropOlder_trootVP (th : Thread) (k : Nat) (l : List Reg) : (th.dropOlder k l).trootVP = th.trootVP := rfl
@[simp] theorem Thread.dropOlder_pklock (th : Thread) (k : Nat) (l : List Reg) : (th.dropOlder k l).pklock = th.pklock := rfl
@[simp] theorem Thread.dropOlder_pklockP (th : Thread) (k : Nat) (l : List Reg) : (th.dropOlder k l).pklockP = th.pklockP := rfl
@[simp] theorem Thread.dropOlder_evecM (th : Thread) (k : Nat) (l : List Reg) : (th.dropOlder k l).evecM = th.evecM := rfl
@[simp] theorem Thread.dropOlder_stkM (th : Thread) (k : Nat) (l : List Reg) : (th.dropOlder k l).stkM = th.stkM := rfl
@[simp] theorem Thread.dropOlder_estkM (th : Thread) (k : Nat) (l : List Reg) : (th.dropOlder k l).estkM = th.estkM := rfl
@[simp] theorem Thread.dropOlder_evecV (th : Thread) (k : Nat) (l : List Reg) : (th.dropOlder k l).evecV = th.evecV := rfl
@[simp] theorem Thread.dropOlder_stkV (th : Thread) (k : Nat) (l : List Reg) : (th.dropOlder k l).stkV = th.stkV := rfl
@[simp] theorem Thread.dropOlder_estkV (th : Thread) (k : Nat) (l : List Reg) : (th.dropOlder k l).estkV = th.estkV := rfl
@[simp] theorem Thread.dropOlder_tstk (th : Thread) (k : Nat) (l : List Reg) : (th.dropOlder k l).tstk = th.tstk := rfl
@[simp] theorem Thread.dropOlder_testk (th : Thread) (k : Nat) (l : List Reg) : (th.dropOlder k l).testk = th.testk := rfl
@[simp] theorem Thread.dropOlder_issued (th : Thread) (k : Nat) (l : List Reg) : (th.dropOlder k l).issued = th.issued := rfl
@[simp] theorem Thread.dropOlder_sinceTick (th : Thread) (k : Nat) (l : List Reg) : (th.dropOlder k l).sinceTick = th.sinceTick := rfl
@[simp] theorem Thread.dropOlder_parkcyc (th : Thread) (k : Nat) (l : List Reg) : (th.dropOlder k l).parkcyc = th.parkcyc := rfl
@[simp] theorem Thread.dropOlder_excnt (th : Thread) (k : Nat) (l : List Reg) : (th.dropOlder k l).excnt = th.excnt := rfl
@[simp] theorem Thread.dropOlder_intcnt (th : Thread) (k : Nat) (l : List Reg) : (th.dropOlder k l).intcnt = th.intcnt := rfl
@[simp] theorem Thread.dropOlder_tlbmiss (th : Thread) (k : Nat) (l : List Reg) : (th.dropOlder k l).tlbmiss = th.tlbmiss := rfl
@[simp] theorem Thread.dropOlder_walks (th : Thread) (k : Nat) (l : List Reg) : (th.dropOlder k l).walks = th.walks := rfl
@[simp] theorem Thread.dropOlder_parity (th : Thread) (k : Nat) (l : List Reg) : (th.dropOlder k l).parity = th.parity := rfl
@[simp] theorem Thread.dropOlder_stores (th : Thread) (k : Nat) (l : List Reg) : (th.dropOlder k l).stores = th.stores := rfl
@[simp] theorem Thread.dropOlder_refetch (th : Thread) (k : Nat) (l : List Reg) : (th.dropOlder k l).refetch = th.refetch := rfl
@[simp] theorem Thread.dropOlder_entry (th : Thread) (k : Nat) (l : List Reg) : (th.dropOlder k l).entry = th.entry := rfl
@[simp] theorem Thread.dropOlder_plate (th : Thread) (k : Nat) (l : List Reg) : (th.dropOlder k l).plate = th.plate := rfl
@[simp] theorem Thread.dropOlder_lastPort (th : Thread) (k : Nat) (l : List Reg) : (th.dropOlder k l).lastPort = th.lastPort := rfl
@[simp] theorem Thread.dropOlder_brkClaim (th : Thread) (k : Nat) (l : List Reg) : (th.dropOlder k l).brkClaim = th.brkClaim := rfl
@[simp] theorem Thread.dropOlder_stopReq (th : Thread) (k : Nat) (l : List Reg) : (th.dropOlder k l).stopReq = th.stopReq := rfl
@[simp] theorem Thread.dropOlder_stepping (th : Thread) (k : Nat) (l : List Reg) : (th.dropOlder k l).stepping = th.stepping := rfl
@[simp] theorem Thread.dropOlder_resume (th : Thread) (k : Nat) (l : List Reg) : (th.dropOlder k l).resume = th.resume := rfl


end Sys2Proof.Machine
end

