-- ==== Sys2Proof/Laws/Memory.lean ====
section
/-! SUPPORT. The laws of memory: a read after a write, and the canonical form that every memory operation keeps. -/

namespace Sys2Proof.Machine

/-! ### Bytes -/

@[simp] theorem leBytes_length (n v : Nat) : (leBytes n v).length = n := by
  induction n generalizing v with
  | zero => rfl
  | succ n ih => simp [leBytes, ih]

/-- Bytes written lowest first give their value back. -/
theorem leValue_leBytes (n v : Nat) : leValue (leBytes n v) = v % 256 ^ n := by
  induction n generalizing v with
  | zero => simp [leBytes, leValue, Nat.mod_one]
  | succ n ih =>
    simp only [leBytes, leValue, ih, BitVec.toNat_ofNat]
    rw [show (256 : Nat) ^ (n + 1) = 256 * 256 ^ n from Nat.pow_succ', Nat.mod_mul]

@[simp] theorem bytesAt_length (m : List Host.Cell) (a n : Nat) : (bytesAt m a n).length = n := by
  induction n generalizing a with
  | zero => rfl
  | succ n ih => simp [bytesAt, ih]

/-- Reading one byte after writing a run of bytes. -/
theorem get_putBytes (m : List Host.Cell) (a : Nat) (d : List Byte) (x : Nat) :
    Map.get 0 (putBytes m a d) x = if a ≤ x ∧ x < a + d.length then d.getD (x - a) 0 else Map.get 0 m x := by
  induction d generalizing m a with
  | nil => rw [if_neg (by simp only [List.length_nil]; omega)]; rfl
  | cons b r ih =>
    simp only [putBytes, ih, Map.get_put, List.length_cons]
    by_cases h : x = a
    · subst h
      rw [if_neg (by omega), if_pos rfl, if_pos (by omega)]
      simp
    · by_cases h' : a + 1 ≤ x ∧ x < a + 1 + r.length
      · rw [if_pos h', if_pos (by omega)]
        obtain ⟨k, rfl⟩ : ∃ k, x = a + 1 + k := ⟨x - (a + 1), by omega⟩
        have h1 : a + 1 + k - a = k + 1 := by omega
        have h2 : a + 1 + k - (a + 1) = k := by omega
        simp [h1, h2]
      · rw [if_neg h', if_neg h, if_neg (by omega)]

/-- Bytes read where they were written. -/
theorem bytesAt_putBytes (m : List Host.Cell) (a : Nat) (d : List Byte) : bytesAt (putBytes m a d) a d.length = d := by
  have key : ∀ (k : Nat) (e : List Byte) (f : Nat → Byte), (∀ i, i < e.length → f (k + i) = e.getD i 0) → (List.range' k e.length).map f = e := by
    intro k e f h
    apply List.ext_getElem
    · simp
    · intro i h1 h2
      simp only [List.getElem_map, List.getElem_range', Nat.one_mul]
      rw [h i h2]
      simp [h2]
  have all : ∀ (n b : Nat) (l : List Host.Cell), bytesAt l b n = (List.range' b n).map (Map.get 0 l) := by
    intro n
    induction n with
    | zero => intro b l; rfl
    | succ n ih => intro b l; simp [bytesAt, List.range'_succ, ih]
  rw [all]
  refine key a d _ (fun i h => ?_)
  rw [get_putBytes, if_pos (by omega), Nat.add_sub_cancel_left]

/-- Bytes elsewhere keep their values. -/
theorem bytesAt_putBytes_apart (m : List Host.Cell) (a b n : Nat) (d : List Byte) (h : b + n ≤ a ∨ a + d.length ≤ b) :
    bytesAt (putBytes m a d) b n = bytesAt m b n := by
  induction n generalizing b with
  | zero => rfl
  | succ n ih =>
    simp only [bytesAt, get_putBytes]
    rw [if_neg (by omega), ih (b + 1) (by omega)]

/-! ### Granules (R8, R49) -/

@[simp] theorem setGranule_gran (s : State) (g : Nat) (x : Granule) :
    (s.setGranule g x).gran = Map.put granDefault s.gran g (x.tag, x.colour) := rfl

/-- A granule written is the granule read; every other one is what it was (R55). -/
theorem setGranule_granuleAt (s : State) (g : Nat) (x : Granule) (k : Nat) :
    (s.setGranule g x).granuleAt k = if k = g then x else s.granuleAt k := by
  unfold State.setGranule State.granuleAt
  simp only [Map.get_put]
  by_cases h : k = g
  · subst h
    have hb := bytesAt_putBytes s.mem (16 * k) (leBytes 16 x.data.toNat)
    rw [leBytes_length] at hb
    rw [hb, leValue_leBytes, if_pos rfl, if_pos rfl, Nat.mod_eq_of_lt (by exact x.data.isLt), BitVec.ofNat_toNat, BitVec.setWidth_eq]
  · rw [if_neg h, if_neg h, bytesAt_putBytes_apart _ _ _ _ _ (by rw [leBytes_length]; omega)]

/-- One granule event changes one granule (R55, R56). -/
theorem applyWrite_granuleAt (s : State) (w : GWrite) (k : Nat) :
    (s.applyWrite w).granuleAt k = if k = w.granule then granApply (s.granuleAt k) w else s.granuleAt k := by
  unfold State.applyWrite
  rw [setGranule_granuleAt]
  split
  · rename_i h; rw [h]
  · rfl

/-- Bytes of other granules stay as they are. -/
theorem setGranule_byteAt_apart (s : State) (g : Nat) (x : Granule) (a : Nat) (h : a / 16 ≠ g) : (s.setGranule g x).byteAt a = s.byteAt a := by
  unfold State.byteAt State.setGranule
  rw [get_putBytes, if_neg (by rw [leBytes_length]; omega)]

/-! ### The canonical form that every memory operation keeps -/

/-- A fold of writes in canonical form. -/
theorem foldl_wf {α β : Type} [DecidableEq α] (d : α) (f : List (Nat × α) → β → List (Nat × α))
    (hf : ∀ m b, Map.wf d m = true → Map.wf d (f m b) = true) (l : List β) (m : List (Nat × α)) (h : Map.wf d m = true) :
    Map.wf d (l.foldl f m) = true := by
  induction l generalizing m with
  | nil => exact h
  | cons b r ih => exact ih _ (hf m b h)

theorem wf_putBytes (m : List Host.Cell) (a : Nat) (d : List Byte) (h : Memory.wf m = true) : Memory.wf (putBytes m a d) = true := by
  induction d generalizing m a with
  | nil => exact h
  | cons b r ih => exact ih _ _ (Map.wf_put 0 m a b h)

theorem wf_ringPut (m : List Host.Cell) (base size pos : Nat) (d : List Byte) (h : Memory.wf m = true) :
    Memory.wf (ringPut m base size pos d) = true := by
  induction d generalizing m pos with
  | nil => exact h
  | cons b r ih => exact ih _ _ (Map.wf_put 0 m _ b h)

theorem wf_moveCells (src dst : List Host.Cell) (lo n at_ : Nat) (h : Memory.wf dst = true) : Memory.wf (moveCells src dst lo n at_) = true :=
  foldl_wf (0 : Byte) (fun m (c : Host.Cell) => Map.put 0 m (c.1 - lo + at_) c.2) (fun m c hm => Map.wf_put 0 m _ c.2 hm) _ _ (Map.wf_filter 0 dst _ h)

/-- Right after reset memory is in canonical form. -/
theorem reset_wf : State.reset.wf := ⟨rfl, rfl⟩

theorem wf_setGranule (s : State) (g : Nat) (x : Granule) (h : s.wf) : (s.setGranule g x).wf :=
  ⟨wf_putBytes _ _ _ h.1, Map.wf_put _ _ _ _ h.2⟩

theorem wf_applyWrite (s : State) (w : GWrite) (h : s.wf) : (s.applyWrite w).wf := wf_setGranule s _ _ h

theorem wf_applyWrites (s : State) (l : List GWrite) (h : s.wf) : (s.applyWrites l).wf := by
  induction l generalizing s with
  | nil => exact h
  | cons w r ih => exact ih _ (wf_applyWrite s w h)

theorem wf_publishWrites (s : State) (l : List (Nat × Granule)) (h : s.wf) : (publishWrites s l).wf := by
  induction l generalizing s with
  | nil => exact h
  | cons p r ih => exact ih _ (wf_setGranule s _ _ h)

theorem wf_loadImage (s : State) (d : Drive) (img at_ size : Nat) (h : s.wf) : (loadImage s d img at_ size).wf :=
  ⟨wf_moveCells _ _ _ _ _ h.1,
   foldl_wf granDefault (fun m (c : Nat × Byte) => Map.put granDefault m (at_ / 16 + (c.1 - tagRegion img size)) (byteTag c.2))
     (fun m _ hm => Map.wf_put granDefault m _ _ hm) _ _ (Map.wf_filter granDefault s.gran _ h.2)⟩

theorem wf_clearSrams (s : State) (h : s.wf) : (clearSrams s).wf := ⟨Map.wf_filter 0 s.mem _ h.1, h.2⟩

theorem wf_loadCursorCopy (s : State) (l : List (Nat × Quad)) (at_ : Nat) (h : s.wf) : (loadCursorCopy s l at_).wf :=
  ⟨foldl_wf (0 : Byte) (fun m (c : Nat × Quad) => putBytes m (at_ + 16 * c.1) (leBytes 16 c.2.toNat)) (fun m _ hm => wf_putBytes m _ _ hm) _ _
     (Map.wf_filter 0 s.mem _ h.1),
   foldl_wf granDefault (fun m (c : Nat × (Bool × BitVec 4)) => Map.put granDefault m c.1 (false, c.2.2)) (fun m _ hm => Map.wf_put granDefault m _ _ hm) _ _
     h.2⟩

/-- A state with the memory of a state in canonical form is in canonical form. -/
theorem wf_of_sameMemory {s u : State} (h : SameMemory s u) (hs : s.wf) : u.wf := by
  unfold State.wf
  rw [h.1, h.2]
  exact hs

end Sys2Proof.Machine
end

