-- ==== Sys2Proof/Laws/Drive.lean ====
section
/-! SUPPORT. The laws of a drive's blocks: an area header, a proof marker or a spill header written is the one read (R228, R231, R456), and other
blocks keep what they hold. -/

namespace Sys2Proof.Machine

/-- Bytes are read by their addresses. -/
theorem bytesAt_congr (m l : List Host.Cell) (a b n : Nat) (h : ∀ i, i < n → Map.get 0 m (a + i) = Map.get 0 l (b + i)) :
    bytesAt m a n = bytesAt l b n := by
  induction n generalizing a b with
  | zero => rfl
  | succ n ih =>
    simp only [bytesAt]
    rw [show Map.get 0 m a = Map.get 0 l b from h 0 (by omega), ih (a + 1) (b + 1) (fun i hi => ?_)]
    have := h (i + 1) (by omega)
    rwa [show a + (i + 1) = a + 1 + i by omega, show b + (i + 1) = b + 1 + i by omega] at this

/-- Bytes that are known one by one. -/
theorem bytesAt_list (m : List Host.Cell) (a : Nat) (d : List Byte) (h : ∀ i, i < d.length → Map.get 0 m (a + i) = d.getD i 0) :
    bytesAt m a d.length = d := by
  have := bytesAt_congr m (putBytes [] a d) a a d.length (fun i hi => by rw [h i hi, get_putBytes, if_pos (by omega), Nat.add_sub_cancel_left])
  rw [this, bytesAt_putBytes]

/-- A byte of a list of cells of which some are taken out. -/
theorem get_zeroBytes (m : List Host.Cell) (lo n x : Nat) :
    Map.get 0 (zeroBytes m lo n) x = if lo ≤ x ∧ x < lo + n then 0 else Map.get 0 m x := by
  have key : Map.find (zeroBytes m lo n) x = if lo ≤ x ∧ x < lo + n then none else Map.find m x := by
    induction m with
    | nil => simp [zeroBytes, Map.find]
    | cons c r ih =>
      obtain ⟨i, v⟩ := c
      simp only [zeroBytes] at ih
      simp only [zeroBytes, List.filter_cons, Map.find_cons]
      by_cases hi : i < lo ∨ lo + n ≤ i
      · rw [if_pos (by simpa using hi), Map.find_cons, ih]
        by_cases hx : x = i
        · subst hx; rw [if_pos rfl, if_neg (by omega), if_pos rfl]
        · rw [if_neg hx, if_neg hx]
      · rw [if_neg (by simpa using hi), ih]
        by_cases hx : x = i
        · subst hx; rw [if_pos (by omega), if_pos (by omega)]
        · rw [if_neg hx]
  simp only [Map.get, key]
  split <;> rfl

/-- What stands at an address after a block is written. -/
theorem get_putBlock (m : List Host.Cell) (lba at_ : Nat) (head : List Byte) (x : Nat) :
    Map.get 0 (putBlock m lba at_ head) x =
      if lbaByte lba + at_ ≤ x ∧ x < lbaByte lba + at_ + 4 then
        (leBytes 4 (crc32c (head ++ List.replicate (at_ - head.length) 0)).toNat).getD (x - (lbaByte lba + at_)) 0
      else if lbaByte lba ≤ x ∧ x < lbaByte lba + head.length then head.getD (x - lbaByte lba) 0
      else if lbaByte lba ≤ x ∧ x < lbaByte lba + 4096 then 0 else Map.get 0 m x := by
  simp only [putBlock, get_putBytes, get_zeroBytes, leBytes_length]

/-- Every other block keeps its bytes. -/
theorem get_putBlock_apart (m : List Host.Cell) (lba at_ : Nat) (head : List Byte) (x : Nat) (h : head.length ≤ at_) (h4 : at_ + 4 ≤ 4096)
    (hx : x < lbaByte lba ∨ lbaByte lba + 4096 ≤ x) : Map.get 0 (putBlock m lba at_ head) x = Map.get 0 m x := by
  rw [get_putBlock, if_neg (by omega), if_neg (by omega), if_neg (by omega)]

/-- A block's bytes up to its CRC. -/
theorem bytesAt_putBlock (m : List Host.Cell) (lba at_ : Nat) (head : List Byte) (h : head.length ≤ at_) (h4 : at_ + 4 ≤ 4096) :
    bytesAt (putBlock m lba at_ head) (lbaByte lba) at_ = head ++ List.replicate (at_ - head.length) 0 := by
  have hl : (head ++ List.replicate (at_ - head.length) (0 : Byte)).length = at_ := by simp; omega
  have := bytesAt_list (putBlock m lba at_ head) (lbaByte lba) (head ++ List.replicate (at_ - head.length) 0) (fun i hi => ?_)
  · rwa [hl] at this
  · rw [hl] at hi
    rw [get_putBlock, if_neg (by omega), Nat.add_sub_cancel_left]
    by_cases hi' : i < head.length
    · rw [if_pos (by omega)]; simp [List.getD, List.getElem?_append, hi']
    · rw [if_neg (by omega), if_pos (by omega)]
      simp only [List.getD, List.getElem?_append, if_neg hi', List.getElem?_replicate]
      split <;> rfl

/-- A field of the head of a block. -/
theorem blockField_putBlock (m : List Host.Cell) (lba at_ : Nat) (head : List Byte) (off n : Nat) (h : head.length ≤ at_) (h4 : at_ + 4 ≤ 4096)
    (hn : off + n ≤ head.length) : blockField (putBlock m lba at_ head) lba off n = leValue ((head.drop off).take n) := by
  have hl : ((head.drop off).take n).length = n := by simp; omega
  have := bytesAt_list (putBlock m lba at_ head) (lbaByte lba + off) ((head.drop off).take n) (fun i hi => ?_)
  · rw [hl] at this; rw [blockField, this]
  · rw [hl] at hi
    rw [get_putBlock, if_neg (by omega), if_pos (by omega)]
    simp only [List.getD, List.getElem?_take, List.getElem?_drop]
    rw [if_pos hi, show lbaByte lba + off + i - lbaByte lba = off + i by omega]

/-- A block written has the CRC of its bytes. -/
theorem blockOk_putBlock (m : List Host.Cell) (lba at_ : Nat) (head : List Byte) (h : head.length ≤ at_) (h4 : at_ + 4 ≤ 4096) :
    blockOk (putBlock m lba at_ head) lba at_ = true := by
  simp only [blockOk, decide_eq_true_eq, bytesAt_putBlock _ _ _ _ h h4, blockField]
  generalize hc : crc32c (head ++ List.replicate (at_ - head.length) 0) = c
  have := bytesAt_list (putBlock m lba at_ head) (lbaByte lba + at_) (leBytes 4 c.toNat) (fun i hi => ?_)
  · rw [leBytes_length] at this
    rw [this, leValue_leBytes]
    exact Nat.mod_eq_of_lt c.isLt
  · rw [leBytes_length] at hi
    rw [get_putBlock, if_pos (by omega), hc, Nat.add_sub_cancel_left]

/-- A block that is not written reads as before. -/
theorem blockField_putBlock_apart (m : List Host.Cell) (lba k at_ : Nat) (head : List Byte) (off n : Nat) (h : head.length ≤ at_)
    (h4 : at_ + 4 ≤ 4096) (hn : off + n ≤ 4096) (hk : k ≠ lba) :
    blockField (putBlock m lba at_ head) k off n = blockField m k off n := by
  simp only [blockField]
  rw [bytesAt_congr _ m _ (lbaByte k + off) n (fun i hi => get_putBlock_apart _ _ _ _ _ h h4 (by simp only [lbaByte]; omega))]

theorem blockOk_putBlock_apart (m : List Host.Cell) (lba k at_ end_ : Nat) (head : List Byte) (h : head.length ≤ at_) (h4 : at_ + 4 ≤ 4096)
    (hn : end_ + 4 ≤ 4096) (hk : k ≠ lba) : blockOk (putBlock m lba at_ head) k end_ = blockOk m k end_ := by
  simp only [blockOk, blockField_putBlock_apart _ _ _ _ _ _ _ h h4 hn hk]
  rw [bytesAt_congr _ m _ (lbaByte k) end_ (fun i hi => get_putBlock_apart _ _ _ _ _ h h4 (by simp only [lbaByte]; omega))]

/-! ### Headers, markers and spills -/

/-- A field of a row of 64-bit values. -/
theorem words_slice (vs : List Nat) (i n : Nat) (h : i < vs.length) (h8 : n ≤ 8) :
    leValue (((vs.map (leBytes 8)).flatten.drop (8 * i)).take n) = vs.getD i 0 % 256 ^ n := by
  have take : ∀ (w v n : Nat), n ≤ w → (leBytes w v).take n = leBytes n v := by
    intro w
    induction w with
    | zero => intro v n h; obtain rfl : n = 0 := by omega
              rfl
    | succ w ih =>
      intro v n h
      cases n with
      | zero => rfl
      | succ n => simp only [leBytes, List.take_succ_cons, ih (v / 256) n (by omega)]
  induction vs generalizing i with
  | nil => simp at h
  | cons v r ih =>
    cases i with
    | zero =>
      simp only [List.map_cons, List.flatten_cons, Nat.mul_zero, List.drop_zero]
      rw [List.take_append_of_le_length (by simpa using h8), take 8 v n h8, leValue_leBytes]
      rfl
    | succ i =>
      simp only [List.map_cons, List.flatten_cons]
      rw [List.drop_append, leBytes_length, List.drop_eq_nil_of_le (by rw [leBytes_length]; omega), List.nil_append, show 8 * (i + 1) - 8 = 8 * i by omega,
        ih i (by simpa using h)]
      rfl

theorem words_length (vs : List Nat) : (vs.map (leBytes 8)).flatten.length = 8 * vs.length := by
  induction vs with
  | nil => rfl
  | cons v r ih => simp only [List.map_cons, List.flatten_cons, List.length_append, leBytes_length, ih, List.length_cons]; omega

/-- A field of a block that begins with a row of 64-bit values. -/
theorem blockField_words (m : List Host.Cell) (lba at_ i n : Nat) (vs : List Nat) (h : 8 * vs.length ≤ at_) (h4 : at_ + 4 ≤ 4096)
    (hi : i < vs.length) (h8 : n ≤ 8) :
    blockField (putBlock m lba at_ (vs.map (leBytes 8)).flatten) lba (8 * i) n = vs.getD i 0 % 256 ^ n := by
  rw [blockField_putBlock _ _ _ _ _ _ (by rwa [words_length]) h4 (by rw [words_length]; omega), words_slice vs i n hi h8]

/-- The bytes of a header, of a marker and of a spill header are rows of 64-bit values. -/
theorem AreaHeader.bytes_words (h : AreaHeader) : h.bytes =
    ([0x54543634, h.fmtid.toNat, h.unit.toNat, h.durBase, h.durSize, h.spillLba, h.jringLba, h.jringBlocks, h.imgLba].map (leBytes 8)).flatten := by
  simp [AreaHeader.bytes]
theorem Marker.bytes_words (k : Marker) : k.bytes =
    ([k.proof, k.scsn, k.jpos, k.fmtid.toNat, k.unit.toNat, k.durSize].map (leBytes 8)).flatten := by simp [Marker.bytes]

theorem Spill.bytes_words (p : Spill) : p.bytes =
    ([0x4C505354, p.fmtid.toNat, p.unit.toNat, p.pfmt.toNat, p.punit.toNat, p.sjpos, p.data.length].map (leBytes 8)).flatten := by simp [Spill.bytes]

theorem AreaHeader.bytes_length (h : AreaHeader) : h.bytes.length = 72 := by simp [AreaHeader.bytes]
theorem Marker.bytes_length (k : Marker) : k.bytes.length = 48 := by simp [Marker.bytes]
theorem Spill.bytes_length (p : Spill) : p.bytes.length = 56 := by simp [Spill.bytes]

theorem ofNat_mod_unit (u : BitVec 10) : BitVec.ofNat 10 (u.toNat % 256 ^ 2) = u := by
  rw [Nat.mod_eq_of_lt (by have := u.isLt; omega)]; simp
theorem ofNat_mod_word (x : Word) : BitVec.ofNat 64 (x.toNat % 256 ^ 8) = x := by
  rw [Nat.mod_eq_of_lt (by have := x.isLt; omega)]; simp

/-- The area header written to a block is the one read from it (R228). -/
theorem headerAt_putHeader (d : Drive) (lba : Nat) (h : AreaHeader) (h1 : h.durBase < 2 ^ 64) (h2 : h.durSize < 2 ^ 64) (h3 : h.spillLba < 2 ^ 64)
    (h4 : h.jringLba < 2 ^ 64) (h5 : h.jringBlocks < 2 ^ 64) (h6 : h.imgLba < 2 ^ 64) : (d.putHeader lba h).headerAt lba = some h := by
  have e (i n : Nat) (hi : i < 9) (hn : n ≤ 8) := blockField_words d.cells lba 4092 i n
    [0x54543634, h.fmtid.toNat, h.unit.toNat, h.durBase, h.durSize, h.spillLba, h.jringLba, h.jringBlocks, h.imgLba] (by simp) (by omega) hi hn
  have ok := blockOk_putBlock d.cells lba 4092 h.bytes (by rw [AreaHeader.bytes_length]; omega) (by omega)
  simp only [Drive.headerAt, Drive.putHeader]
  simp only [← AreaHeader.bytes_words] at e
  have e0 := e 0 4 (by omega) (by omega)
  have e1 := e 1 8 (by omega) (by omega)
  have e2 := e 2 2 (by omega) (by omega)
  have e3 := e 3 8 (by omega) (by omega)
  have e4 := e 4 8 (by omega) (by omega)
  have e5 := e 5 8 (by omega) (by omega)
  have e6 := e 6 8 (by omega) (by omega)
  have e7 := e 7 8 (by omega) (by omega)
  have e8 := e 8 8 (by omega) (by omega)
  simp only [Nat.reduceMul, Nat.mul_zero] at e0 e1 e2 e3 e4 e5 e6 e7 e8 ⊢
  simp only [e0, e1, e2, e3, e4, e5, e6, e7, e8, ok, List.getD_cons_zero, List.getD_cons_succ, ofNat_mod_unit, ofNat_mod_word]
  rw [Nat.mod_eq_of_lt (a := h.durBase) (by omega), Nat.mod_eq_of_lt (a := h.durSize) (by omega), Nat.mod_eq_of_lt (a := h.spillLba) (by omega),
    Nat.mod_eq_of_lt (a := h.jringLba) (by omega), Nat.mod_eq_of_lt (a := h.jringBlocks) (by omega), Nat.mod_eq_of_lt (a := h.imgLba) (by omega)]
  rfl

/-- The proof marker written to its slot is the one read from it (R231). -/
theorem markerAt_putMarker (d : Drive) (k : Marker) (h1 : k.proof < 2 ^ 64) (h2 : k.scsn < 2 ^ 64) (h3 : k.jpos < 2 ^ 64) (h4 : k.durSize < 2 ^ 64) :
    (d.putMarker k).markerAt (k.proof % 16) = some k := by
  have e (i n : Nat) (hi : i < 6) (hn : n ≤ 8) := blockField_words d.cells (16 + k.proof % 16) 60 i n
    [k.proof, k.scsn, k.jpos, k.fmtid.toNat, k.unit.toNat, k.durSize] (by simp) (by omega) hi hn
  have ok := blockOk_putBlock d.cells (16 + k.proof % 16) 60 k.bytes (by rw [Marker.bytes_length]; omega) (by omega)
  simp only [Drive.markerAt, Drive.putMarker]
  simp only [← Marker.bytes_words] at e
  have e0 := e 0 8 (by omega) (by omega)
  have e1 := e 1 8 (by omega) (by omega)
  have e2 := e 2 8 (by omega) (by omega)
  have e3 := e 3 8 (by omega) (by omega)
  have e4 := e 4 2 (by omega) (by omega)
  have e5 := e 5 8 (by omega) (by omega)
  simp only [Nat.reduceMul, Nat.mul_zero] at e0 e1 e2 e3 e4 e5
  simp only [e0, e1, e2, e3, e4, e5, ok, if_true, List.getD_cons_zero, List.getD_cons_succ, ofNat_mod_unit, ofNat_mod_word]
  rw [Nat.mod_eq_of_lt (a := k.proof) (by omega), Nat.mod_eq_of_lt (a := k.scsn) (by omega), Nat.mod_eq_of_lt (a := k.jpos) (by omega),
    Nat.mod_eq_of_lt (a := k.durSize) (by omega)]

/-- The spill written to its area is the one read from it (R456). -/
theorem spillAt_putSpill (d : Drive) (lba : Nat) (p : Spill) (h1 : p.sjpos < 2 ^ 64) (h2 : p.data.length < 2 ^ 64) : (d.putSpill lba p).spillAt lba = some p := by
  have hb : p.bytes.length ≤ 4092 := by rw [Spill.bytes_length]; omega
  have same (off n : Nat) (hn : off + n ≤ 4096) :
      bytesAt (putBytes (putBlock d.cells lba 4092 p.bytes) (lbaByte (lba + 1)) p.data) (lbaByte lba + off) n =
        bytesAt (putBlock d.cells lba 4092 p.bytes) (lbaByte lba + off) n := bytesAt_putBytes_apart _ _ _ _ _ (by simp only [lbaByte]; omega)
  have e (i n : Nat) (hi : i < 7) (hn : n ≤ 8) := blockField_words d.cells lba 4092 i n
    [0x4C505354, p.fmtid.toNat, p.unit.toNat, p.pfmt.toNat, p.punit.toNat, p.sjpos, p.data.length] (by simp) (by omega) hi hn
  have ok := blockOk_putBlock d.cells lba 4092 p.bytes hb (by omega)
  simp only [← Spill.bytes_words, blockField] at e
  have s0 := same 0 4092 (by omega)
  simp only [Nat.add_zero] at s0
  have e0 := e 0 4 (by omega) (by omega)
  have e1 := e 1 8 (by omega) (by omega)
  have e2 := e 2 2 (by omega) (by omega)
  have e3 := e 3 4 (by omega) (by omega)
  have e4 := e 4 2 (by omega) (by omega)
  have e5 := e 5 8 (by omega) (by omega)
  have e6 := e 6 8 (by omega) (by omega)
  simp only [Nat.reduceMul, Nat.mul_zero] at e0 e1 e2 e3 e4 e5 e6
  have ok := of_decide_eq_true ok
  simp (disch := omega) only [Drive.spillAt, Drive.putSpill, blockOk, blockField, same, s0, e0, e1, e2, e3, e4, e5, e6, List.getD_cons_zero, List.getD_cons_succ,
    ofNat_mod_unit, ofNat_mod_word]
  rw [Nat.mod_eq_of_lt (a := p.sjpos) (by omega), Nat.mod_eq_of_lt (a := p.data.length) (by omega), bytesAt_putBytes,
    Nat.mod_eq_of_lt (a := p.pfmt.toNat) (by have := p.pfmt.isLt; omega), Nat.mod_eq_of_lt (a := p.punit.toNat) (by have := p.punit.isLt; omega)]
  rw [if_pos (by refine ⟨?_, decide_eq_true ok⟩; first | trivial | decide)]
  simp

/-- A header elsewhere does not change what a block holds. -/
theorem headerAt_putHeader_apart (d : Drive) (lba k : Nat) (h : AreaHeader) (hk : k ≠ lba) : (d.putHeader lba h).headerAt k = d.headerAt k := by
  have hb : h.bytes.length ≤ 4092 := by rw [AreaHeader.bytes_length]; omega
  simp only [Drive.headerAt, Drive.putHeader, blockOk_putBlock_apart _ _ _ _ _ _ hb (by omega) (by omega : 4092 + 4 ≤ 4096) hk]
  simp (disch := omega) only [blockField_putBlock_apart]

theorem headerAt_putMarker (d : Drive) (k : Marker) (lba : Nat) (h : lba < 16) : (d.putMarker k).headerAt lba = d.headerAt lba := by
  have hb : k.bytes.length ≤ 60 := by rw [Marker.bytes_length]; omega
  have hk : lba ≠ 16 + k.proof % 16 := by omega
  simp only [Drive.headerAt, Drive.putMarker, blockOk_putBlock_apart _ _ _ _ _ _ hb (by omega) (by omega : 4092 + 4 ≤ 4096) hk]
  simp (disch := omega) only [blockField_putBlock_apart]

theorem markerAt_putMarker_apart (d : Drive) (k : Marker) (slot : Nat) (h : slot ≠ k.proof % 16) : (d.putMarker k).markerAt slot = d.markerAt slot := by
  have hb : k.bytes.length ≤ 60 := by rw [Marker.bytes_length]; omega
  have hk : 16 + slot ≠ 16 + k.proof % 16 := by omega
  simp only [Drive.markerAt, Drive.putMarker, blockOk_putBlock_apart _ _ _ _ _ _ hb (by omega) (by omega : 60 + 4 ≤ 4096) hk]
  simp (disch := omega) only [blockField_putBlock_apart]

theorem markerAt_putHeader (d : Drive) (lba slot : Nat) (h : AreaHeader) (hl : lba < 16) : (d.putHeader lba h).markerAt slot = d.markerAt slot := by
  have hb : h.bytes.length ≤ 4092 := by rw [AreaHeader.bytes_length]; omega
  have hk : 16 + slot ≠ lba := by omega
  simp only [Drive.markerAt, Drive.putHeader, blockOk_putBlock_apart _ _ _ _ _ _ hb (by omega) (by omega : 60 + 4 ≤ 4096) hk]
  simp (disch := omega) only [blockField_putBlock_apart]

/-! ### What is read from a drive -/

theorem header_of_first (d : Drive) (h : AreaHeader) (e : d.headerAt 0 = some h) : d.header = some h := by simp only [Drive.header, e]

/-- The fence check passes where LBA 0 names the unit's FMTID (R353). -/
theorem fenceOk_of_header (s : State) (h : AreaHeader) (e : s.drive0.headerAt 0 = some h) : s.fenceOk = decide (h.fmtid = s.rget .fmtid) := by
  simp only [State.fenceOk, e]

/-- Without a valid marker in the slots there is no best one; a marker that stands alone is the best one (R240). -/
theorem bestMarker_none (d : Drive) (h : AreaHeader) (hk : ∀ k, k < 16 → d.markerAt k = none) : d.bestMarker h = none := by
  simp [Drive.bestMarker, List.range, List.range.loop, hk, laterMarker]

theorem bestMarker_alone (d : Drive) (h : AreaHeader) (k : Marker) (h0 : d.markerAt 0 = some k) (hk : ∀ j, j ≠ 0 → j < 16 → d.markerAt j = none)
    (e : k.fmtid = h.fmtid) : d.bestMarker h = some k := by
  simp [Drive.bestMarker, List.range, List.range.loop, h0, hk, laterMarker, e, Option.filter]

end Sys2Proof.Machine
end

