-- ==== Sys2Proof/Laws/Issue.lean ====
section
/-! SUPPORT. How an instruction issues and ends, said once: admission, the body, the boundary (R65, R413), and writing one register. -/

namespace Sys2Proof.Machine

/-- An admitted instruction is its body and its end. -/
theorem issue_go {s s₁ : State} {t : Tid} {p : Pre} (h : tryIssue s t p = .go s₁) (body : State → Act) :
    issue s t p body = (body s₁).finish t s₁.fresh p.dests := by simp only [issue, h]

/-- A thread that does not issue leaves the state alone. -/
theorem issue_idle {s : State} {t : Tid} {p : Pre} (h : tryIssue s t p = .idle) (body : State → Act) : issue s t p body = s := by
  simp only [issue, h]

/-- A thread that parks, waits or raises before it executes. -/
theorem issue_stopped {s s' : State} {t : Tid} {p : Pre} (h : tryIssue s t p = .stopped s') (body : State → Act) : issue s t p body = s' := by
  simp only [issue, h]

/-- With no stop request the boundary changes nothing (R413). -/
theorem boundary_noStop {s : State} {t : Tid} (h : s.noStop t) : s.boundary t = s := by
  unfold State.boundary
  simp [h.1, h.2]

/-- A change of a thread that leaves its stop request alone. -/
theorem noStop_modThr {s : State} {t : Tid} {f : Thread → Thread} (h : s.noStop t)
    (h1 : (f (s.thr t)).stepping = (s.thr t).stepping) (h2 : (f (s.thr t)).stopReq = (s.thr t).stopReq) : (s.modThr t f).noStop t := by
  simp only [State.noStop, State.modThr_thr, if_true]
  rw [h1, h2]
  exact h

/-- An instruction whose body leaves a changed thread: PCC moves past it. -/
theorem finish_done {s : State} {t : Tid} {f : Thread → Thread} (k : Nat) (dests : List Reg) (h : s.noStop t)
    (h1 : (f (s.thr t)).stepping = (s.thr t).stepping) (h2 : (f (s.thr t)).stopReq = (s.thr t).stopReq) :
    Act.finish t k dests (.done (s.modThr t f)) = (s.modThr t f).modThr t (fun th => (th.dropOlder k dests).advance 4) := by
  have h' := noStop_modThr (f := f) h h1 h2
  exact boundary_noStop (noStop_modThr h' rfl rfl)

/-- Only thread t differs after changes of thread t. -/
theorem onlyThread_modThr (s : State) (t : Tid) (f : Thread → Thread) : OnlyThread s (s.modThr t f) t :=
  ⟨rfl, fun x h => by rw [State.modThr_thr, if_neg h]⟩

theorem OnlyThread.trans {s u v : State} {t : Tid} (h : OnlyThread s u t) (k : OnlyThread u v t) : OnlyThread s v t := by
  refine ⟨?_, fun x hx => (k.2 x hx).trans (h.2 x hx)⟩
  have h1 := h.1
  have k1 := k.1
  rw [← h1, ← k1]

/-- An instruction whose body writes one register (R63). -/
theorem finish_setReg {s : State} {t : Tid} (rd : Reg) (v : Cap) (h : s.noStop t) :
    WritesReg s (Act.finish t s.fresh [rd] (.done (s.modThr t (fun th => th.setReg rd v)))) t rd v := by
  rw [finish_done s.fresh [rd] h (by simp) (by simp)]
  refine ⟨(onlyThread_modThr s t _).trans (onlyThread_modThr _ t _), ?_, fun r => by simp, by simp [MovedOn], ?_⟩
  · simp only [OnlyRegs, State.modThr_thr, if_true]
    unfold Thread.setReg Thread.dropOlder Thread.advance
    split <;> rfl
  · simp only [State.modThr_thr, if_true, Thread.advance_outs]
    unfold Thread.dropOlder
    simp

end Sys2Proof.Machine
end

