-- ==== Sys2Proof/Machine/Package.lean ====
section
/-! DEFINITION. The package's map as functions: names and regions of balls, supplies of the centre region, users of lanes, values of open straps and stages of
the supplies (spec/18_package_and_electrical.md). No command reads them; a board does. -/

namespace Sys2Proof.Machine

/-- The letters that name rows (R437). -/
def rowLetters : List String := ["A", "B", "C", "D", "E", "F", "G", "H", "J", "K", "L", "M", "N", "P", "T", "U", "V", "W", "Y"]

/-- The name of row index 1 to 57 (R437). -/
def rowName (row : Nat) : Option String :=
  if row = 0 ∨ 57 < row then none
  else (rowLetters[(row - 1) % 19]?).map (fun l => (["", "A", "B"].getD ((row - 1) / 19) "") ++ l)

/-- The name of a ball: its row followed by its column (R437). -/
def ballName (row col : Nat) : Option String :=
  if col = 0 ∨ 57 < col then none else (rowName row).map (fun l => l ++ toString col)

/-- The supplies of R444, and ground. -/
inductive Supply where
  | vss
  | core
  | soc
  | sram
  | aon
  | ddq
  | io
  | sds
  | sdsh
deriving DecidableEq, Repr

/-- The regions of R438. -/
inductive BallRegion where
  /-- A memory region, with the channel of the column. -/
  | memory (channel : Nat)
  | memoryGuard
  | westSerdes
  | eastSerdes
  | eastService
  | centre
deriving DecidableEq, Repr

/-- The region of a ball (R438). -/
def ballRegion (row col : Nat) : Option BallRegion :=
  if row = 0 ∨ 57 < row ∨ col = 0 ∨ 57 < col then none
  else if row ≤ 16 ∨ 42 ≤ row then
    some (if col = 57 then .memoryGuard else .memory ((col - 1) / 14 + (if row ≤ 16 then 0 else 4)))
  else if col ≤ 8 then some .westSerdes
  else if col ≤ 49 then some .centre
  else if row ≤ 36 then some .eastSerdes
  else some .eastService

/-- The supply of a ball of the centre region, ground included (R439). -/
def centreSupply (row col : Nat) : Option Supply :=
  if ballRegion row col ≠ some .centre then none
  else if (row + col) % 2 = 0 then some .vss
  else if row = 17 ∨ row = 41 then some .ddq
  else if col ≤ 10 ∨ 48 ≤ col then some (if row ≤ 21 ∨ 37 ≤ row then .sdsh else .sds)
  else if col ≤ 32 then some .core
  else if col ≤ 40 then some .sram
  else some .soc

/-- Ethernet lanes of MAC n (R441): two at 100 Gb/s, the even one alone otherwise. -/
def macLanes (mac : Nat) (hundred : Bool) : List Nat := if hundred then [2 * mac, 2 * mac + 1] else [2 * mac]

/-- Sudon lanes of a link (R441): WEST, EAST, CROSS_N, CROSS_S. -/
def sudonLanes (link : Nat) : List Nat := [[0, 1, 2, 3], [4, 5, 6, 7], [8, 9], [10, 11]].getD link []

/-- The straps as they are latched from pins, of which an open one takes its pull's value (R443). -/
def Straps.ofPins (anchor : Option Bool) (ring : Option (BitVec 4)) (bootsrc : Option (BitVec 2)) (mirrorEn : Option Bool) : Straps :=
  { anchor := anchor.getD false, ring := ring.getD 0, bootsrc := bootsrc.getD 0, mirrorEn := mirrorEn.getD true }

/-- The stage in which the board raises a supply (R446); within stage 5, VDD_SDS comes before VDD_SDSH. -/
def Supply.stage : Supply → Option Nat
  | .vss => none
  | .aon => some 1
  | .io => some 2
  | .soc => some 3
  | .sram => some 3
  | .core => some 3
  | .ddq => some 4
  | .sds => some 5
  | .sdsh => some 5

end Sys2Proof.Machine
end

