-- ==== Sys2Proof/WellFormed.lean ====
section
/-! DEFINITION. Which commands are well formed: every number they carry names something the unit has (tiles and vectors R8, R287; ports R293; MACs
R302; gates and regions R359, R360; domains R378; links R333; channels R22; root ports R434), and byte strings of fixed length have that length
(flits R334, image headers R425, ticks per plate R388). -/

namespace Sys2Proof

/-- The numbers a command carries, each with the limit below which it must lie. -/
def Instr.bounds : Instr → List (Nat × Nat)
  | .invalVAcknowledge _ who => match who with
    | .tile n => [(n, 64)]
    | .cluster n => [(n, 16)]
  | .interruptEntry _ during => during.map (fun (x : Nat × Nat) => (x.2, 256))
  | .vectorRaise tile vector => [(tile, 64), (vector, 256)]
  | .vcfgWrite _ tile vector _ => [(tile, 64), (vector, 256)]
  | .pendWrite _ tile k _ => [(tile, 64), (k, 4)]
  | .swsetWrite _ tile _ => [(tile, 64)]
  | .lineRepairComplete line => [(line, 2 ^ 40)]
  | .portClaimExpiry port => [(port, 4096)]
  | .ethernetFrameReceive mac _ => [(mac, 8)]
  | .messageDelimit port => [(port, 4096)]
  | .retransmissionTimeout port => [(port, 4096)]
  | .ackTimerExpiry port => [(port, 4096)]
  | .timeWaitExpiry port => [(port, 4096)]
  | .rawtxTailWrite _ mac _ => [(mac, 8)]
  | .rawrxTailWrite _ mac _ => [(mac, 8)]
  | .linkRetrain _ goodLanes _ => [(goodLanes, 5)]
  | .handoverReserve r => [(r.obj, 4096), (r.tlist, 64), (r.tslot, 16), (r.partid, 65536)]
  | .handoverReserveAnswer a => match a.answer with
    | .reserved obj => [(a.about.object, 65536), (obj, 4096)]
    | .refused _ => [(a.about.object, 65536)]
  | .handoverAck about => [(about.object, 65536)]
  | .handoverTransfer x => [(x.obj, 4096)]
  | .forwardedFrame port _ mac _ => [(port, 4096), (mac, 8)]
  | .forwardWindowExpiry port => [(port, 4096)]
  | .gateSync _ gate => [(gate, 12)]
  | .gateSyncComplete gate => [(gate, 8)]
  | .rattrWrite _ gate region _ => [(gate, 12), (region, 32)]
  | .ledgerTick a => a.acts.map (fun (x : Activity) => (x.domain, 100)) ++ a.temps.map (fun (x : Nat × Int) => (x.1, 20))
  | .clockGate tile => [(tile, 64)]
  | .retentionOffExpiry tile => [(tile, 64)]
  | .cryptoRetention engine => [(engine, 2)]
  | .domainWakeComplete domain => [(domain, 100)]
  | .domctlWrite _ domain _ => [(domain, 100)]
  | .linkTrainingComplete l => match l with
    | .sudon _ lanes _ => [(lanes, 5)]
    | .endpoint => []
  | .ddr5TrainingComplete channels => [(channels.length, 9)]
  | .hostRead _ offset width => [(offset, 2 ^ 36), (width, 4097)]
  | .hostWrite _ offset data => [(offset, 2 ^ 36), (data.length, 4097)]
  | .rootPortLinkUp port speed _ _ _ => [(port, 2), (speed, 6)]
  | .rootPortLinkDown port => [(port, 2)]
  | .macLinkUp mac => [(mac, 8)]
  | .macLinkDown mac => [(mac, 8)]
  | .registerWrite _ addr width _ => [(addr, 2 ^ 46), (width, 9)]
  | .add .. | .sub .. | .and .. | .or .. | .xor .. | .andn .. | .sll .. | .srl .. | .sra .. | .seq .. | .sne .. | .slt .. | .sltu .. | .sle ..
  | .sleu .. | .min .. | .max .. | .mul .. | .mulh .. | .mulhu .. | .div .. | .divu .. | .rem .. | .remu .. | .addi .. | .andi .. | .ori ..
  | .xori .. | .slti .. | .sltiu .. | .slli .. | .srli .. | .srai .. | .liu .. | .cpcrel .. | .bz .. | .bnz .. | .j .. | .call .. | .jr ..
  | .callr .. | .ret .. | .rspop .. | .rspush .. | .ccopy .. | .cpoint .. | .cstep .. | .cstepi .. | .cnarrow .. | .cnarrowX .. | .cdrop ..
  | .cdropi .. | .ctint .. | .cwrap .. | .cunwrap .. | .cfitlen .. | .cfitmask .. | .cpaint .. | .cpaintL .. | .crdbase .. | .crdlen .. | .crdrt ..
  | .crdclr .. | .crdseal .. | .crdtag .. | .crdcur .. | .lb .. | .lbu .. | .lh .. | .lhu .. | .lw .. | .lwu .. | .ld .. | .lq .. | .lc .. | .pref ..
  | .sb .. | .sh .. | .sw .. | .sd .. | .sq .. | .sc .. | .atomicSwap .. | .atomicAdd .. | .atomicAnd .. | .atomicOr .. | .atomicXor ..
  | .atomicMax .. | .atomicMin .. | .atomicMaxu .. | .atomicMinu .. | .cas .. | .fence .. | .sync .. | .syncI .. | .sysc .. | .wcall .. | .eret ..
  | .brk .. | .tstart .. | .tstartAnswer .. | .texit .. | .invalV .. | .crr .. | .crw .. | .madd .. | .msub .. | .mmul .. | .mdiv .. | .mresc ..
  | .mneg .. | .mabs .. | .mceq .. | .mclt .. | .mcle .. | .misv .. | .ma2l .. | .ml2a .. | .mlget .. | .mlset .. | .mcvti .. | .mcvtm ..
  | .longOperationComplete .. | .loadDataArrival .. | .storeComplete .. | .instructionFetchArrival .. | .speculativeAccess .. | .bmov .. | .bfill ..
  | .bscan .. | .bcmp .. | .bchk .. | .pbegin .. | .pbeginDefer .. | .pcommit .. | .pabort .. | .pstat .. | .commitRequest .. | .commitPoint ..
  | .journalWaitExpiry .. | .deferLimitExpiry .. | .precv .. | .psend .. | .pwait .. | .pwaitTimeout .. | .pctlQuery .. | .pctlClose ..
  | .pctlAbort .. | .pctlRelease .. | .pctlSetconf .. | .pctlKeys .. | .pctlLpool .. | .kcmdInstall .. | .kcmdErase .. | .format .. | .formatComplete
  | .openJournal .. | .recoveryComplete | .tailRequest .. | .tailAnswer .. | .tailRequestTimeout | .etchCtrlWrite .. | .mirrorRecord ..
  | .mirrorAck .. | .mirrorTimeout | .drainedPosition .. | .nvmeSafeGatherTimeout | .partialBlockTimeout | .nvmeCommandComplete ..
  | .proofEpochBoundary | .pwrfailAssert | .pwrfailFilterExpiry | .powerFailDrainComplete | .pwrfailDeassert | .flitReceive .. | .linkIdleTimeout ..
  | .linkTrainingLost .. | .enumerationToken .. | .enumerationTokenTimeout | .positionList .. | .addressRequest .. | .addressTimeout | .joinAnswer ..
  | .probe .. | .probeAnswer .. | .probeTimeout .. | .fenceCheck | .take .. | .takeWaitExpiry | .takeoverComplete | .hoStart ..
  | .handoverTimeout | .drainedPositionReport | .bridgeFailure .. | .pllLockLoss .. | .ethrefLoss | .ethrefRestore | .thermalCapLift | .plan ..
  | .pmbusCorrection .. | .vrSettleExpiry | .calKeyWrite .. | .calCmdWrite .. | .calRewriteComplete .. | .eventRecordWrite | .rateWindowStart
  | .recCursorWrite .. | .recWindowRead .. | .vdbgAuthWrite .. | .tapReset | .extest | .samplePreload | .idcode | .bypass | .dbgxferNop
  | .dbgxferMemRead .. | .dbgxferMemWrite .. | .dbgxferRegRead .. | .dbgxferRegWrite .. | .threadStop | .threadResume | .threadStep
  | .thrRegDataWrite .. | .coldReset .. | .warmReset | .porstNAssert | .vddAonPowerUp | .railLoss .. | .dramInitComplete | .imageReadComplete ..
  | .mbH2uDoorbell | .mbU2hDoorbell .. | .hostIrqWrite .. | .epPerst => []

/-- The strings of fixed length a command carries: the length it has, the length it must have. -/
def Instr.lengths : Instr → List (Nat × Nat)
  | .flitReceive _ flit => [(flit.bytes.length, 256)]
  | .plan tpp => [(tpp.length, 4)]
  | .imageReadComplete header _ => [(header.length, 512)]
  | .add .. | .sub .. | .and .. | .or .. | .xor .. | .andn .. | .sll .. | .srl .. | .sra .. | .seq .. | .sne .. | .slt .. | .sltu .. | .sle ..
  | .sleu .. | .min .. | .max .. | .mul .. | .mulh .. | .mulhu .. | .div .. | .divu .. | .rem .. | .remu .. | .addi .. | .andi .. | .ori ..
  | .xori .. | .slti .. | .sltiu .. | .slli .. | .srli .. | .srai .. | .liu .. | .cpcrel .. | .bz .. | .bnz .. | .j .. | .call .. | .jr ..
  | .callr .. | .ret .. | .rspop .. | .rspush .. | .ccopy .. | .cpoint .. | .cstep .. | .cstepi .. | .cnarrow .. | .cnarrowX .. | .cdrop ..
  | .cdropi .. | .ctint .. | .cwrap .. | .cunwrap .. | .cfitlen .. | .cfitmask .. | .cpaint .. | .cpaintL .. | .crdbase .. | .crdlen .. | .crdrt ..
  | .crdclr .. | .crdseal .. | .crdtag .. | .crdcur .. | .lb .. | .lbu .. | .lh .. | .lhu .. | .lw .. | .lwu .. | .ld .. | .lq .. | .lc .. | .pref ..
  | .sb .. | .sh .. | .sw .. | .sd .. | .sq .. | .sc .. | .atomicSwap .. | .atomicAdd .. | .atomicAnd .. | .atomicOr .. | .atomicXor ..
  | .atomicMax .. | .atomicMin .. | .atomicMaxu .. | .atomicMinu .. | .cas .. | .fence .. | .sync .. | .syncI .. | .sysc .. | .wcall .. | .eret ..
  | .brk .. | .tstart .. | .tstartAnswer .. | .texit .. | .invalV .. | .invalVAcknowledge .. | .crr .. | .crw .. | .madd .. | .msub .. | .mmul ..
  | .mdiv .. | .mresc .. | .mneg .. | .mabs .. | .mceq .. | .mclt .. | .mcle .. | .misv .. | .ma2l .. | .ml2a .. | .mlget .. | .mlset .. | .mcvti ..
  | .mcvtm .. | .longOperationComplete .. | .loadDataArrival .. | .storeComplete .. | .instructionFetchArrival .. | .speculativeAccess .. | .bmov ..
  | .bfill .. | .bscan .. | .bcmp .. | .bchk .. | .pbegin .. | .pbeginDefer .. | .pcommit .. | .pabort .. | .pstat .. | .commitRequest ..
  | .commitPoint .. | .journalWaitExpiry .. | .deferLimitExpiry .. | .interruptEntry .. | .vectorRaise .. | .vcfgWrite .. | .pendWrite ..
  | .swsetWrite .. | .lineRepairComplete .. | .precv .. | .psend .. | .pwait .. | .pwaitTimeout .. | .portClaimExpiry .. | .pctlQuery ..
  | .pctlClose .. | .pctlAbort .. | .pctlRelease .. | .pctlSetconf .. | .pctlKeys .. | .pctlLpool .. | .ethernetFrameReceive .. | .messageDelimit ..
  | .retransmissionTimeout .. | .ackTimerExpiry .. | .timeWaitExpiry .. | .rawtxTailWrite .. | .rawrxTailWrite .. | .kcmdInstall .. | .kcmdErase ..
  | .format .. | .formatComplete | .openJournal .. | .recoveryComplete | .tailRequest .. | .tailAnswer .. | .tailRequestTimeout | .etchCtrlWrite ..
  | .mirrorRecord .. | .mirrorAck .. | .mirrorTimeout | .drainedPosition .. | .nvmeSafeGatherTimeout | .partialBlockTimeout | .nvmeCommandComplete ..
  | .proofEpochBoundary | .pwrfailAssert | .pwrfailFilterExpiry | .powerFailDrainComplete | .pwrfailDeassert | .linkIdleTimeout ..
  | .linkTrainingLost .. | .linkRetrain .. | .enumerationToken .. | .enumerationTokenTimeout | .positionList .. | .addressRequest ..
  | .addressTimeout | .joinAnswer .. | .probe .. | .probeAnswer .. | .probeTimeout .. | .fenceCheck | .take .. | .takeWaitExpiry | .takeoverComplete
  | .hoStart .. | .handoverReserve .. | .handoverReserveAnswer .. | .handoverTransfer .. | .handoverAck .. | .handoverTimeout | .forwardedFrame ..
  | .forwardWindowExpiry .. | .drainedPositionReport | .bridgeFailure .. | .pllLockLoss .. | .ethrefLoss | .ethrefRestore | .gateSync ..
  | .gateSyncComplete .. | .rattrWrite .. | .ledgerTick .. | .thermalCapLift | .pmbusCorrection .. | .vrSettleExpiry | .clockGate ..
  | .retentionOffExpiry .. | .cryptoRetention .. | .domainWakeComplete .. | .domctlWrite .. | .calKeyWrite .. | .calCmdWrite ..
  | .calRewriteComplete .. | .eventRecordWrite | .rateWindowStart | .recCursorWrite .. | .recWindowRead .. | .vdbgAuthWrite .. | .tapReset | .extest
  | .samplePreload | .idcode | .bypass | .dbgxferNop | .dbgxferMemRead .. | .dbgxferMemWrite .. | .dbgxferRegRead .. | .dbgxferRegWrite ..
  | .threadStop | .threadResume | .threadStep | .thrRegDataWrite .. | .coldReset .. | .warmReset | .porstNAssert | .vddAonPowerUp | .railLoss ..
  | .linkTrainingComplete .. | .ddr5TrainingComplete .. | .dramInitComplete | .mbH2uDoorbell | .mbU2hDoorbell .. | .hostIrqWrite .. | .hostRead ..
  | .hostWrite .. | .epPerst | .rootPortLinkUp .. | .rootPortLinkDown .. | .macLinkUp .. | .macLinkDown .. | .registerWrite .. => []

/-- The command names only what the unit has. -/
def Instr.wellFormed (i : Instr) : Bool :=
  i.bounds.all (fun b => decide (b.1 < b.2)) && i.lengths.all (fun b => decide (b.1 = b.2))

end Sys2Proof
end

