-- ==== Sys2Proof/Tests/Slice0.lean ====
section
/-! SUPPORT. Tests: ill-formed commands are refused, the spec's worked examples, one step of a few commands, and for every statement with
hypotheses a state and operands that meet them, clause by clause. -/

namespace Sys2Proof.Tests

open Sys2Proof Sys2Proof.Machine

set_option Elab.async false

/-! ### Small states -/

/-- A thread at 0x1000 with the root capability as PCC, at VS. -/
def runner : Thread := { Thread.reset with st := .ready, pcc := Cap.root 0x1000 }

/-- A powered unit with 16 MiB of DRAM whose thread 0 is the runner. -/
def unit0 : State :=
  { State.reset with channels := [(0, { bytes := 0x1000000, failed := none, initDone := true })], threads := [(0, runner)],
                     tiles := [(0, { Tile.reset with l1i := [(64, [])] })], boot := { Boot.reset with porst := false, released := true } }

/-- The state on which an instruction with demands p of thread 0 executes. -/
def goes (s : State) (p : Pre) : State :=
  match tryIssue s 0 p with
  | .go u => u
  | _ => s

/-- The instruction issues, and no debug stop is asked for. -/
def issuesOk (s : State) (p : Pre) : Bool :=
  match tryIssue s 0 p with
  | .go u => !(u.thr 0).stepping && !(u.thr 0).stopReq
  | _ => false
theorem issues_of (s : State) (p : Pre) (h : issuesOk s p = true) : Issues s 0 p (goes s p) := by
  unfold issuesOk at h
  unfold Issues goes
  cases e : tryIssue s 0 p <;> rw [e] at h <;> simp_all [State.noStop]

def onRunner (f : Thread → Thread) (s : State) : State := s.modThr 0 f
def withRegs (l : List (Nat × Cap)) (s : State) : State := onRunner (fun th => { th with regs := l }) s
def int (n : Nat) : Cap := Cap.ofWord (BitVec.ofNat 64 n)
def money (n : Int) : Cap := Cap.ofQuad (moneyEncode n)
/-- The state after a command. -/
def ran (i : Instr) (s : State) : State :=
  match exec i s with
  | .next u => u
  | _ => s

/-- Registers: 1 and 2 integers, 4 the root at 0x2000, 5 sealed with type 0x55, 6 an integer, 7 the root at 0x55, 8 an integer. -/
def base : State :=
  withRegs [(1, int (2 ^ 64 - 6)), (2, int 7), (4, Cap.root 0x2000), (5, (Cap.root 0x40).setSeal 0x55), (6, int 0x1000), (7, Cap.root 0x55), (8, int 3)] unit0

/-- base with two granules in memory, the second a capability. -/
def loaded : State :=
  (base.setGranule 0x200 { data := 0x80818283848586878889, tag := false, colour := 15 }).setGranule 0x201
    { data := (Cap.root 0x77).bits, tag := true, colour := 15 }

/-! ### Ill-formed commands -/

/-- Some packet, frame, transfer and reservation, as small as they come. -/
def segment0 : Segment :=
  { sport := 4000, dport := 80, seqNo := 1000, ackNo := 500, syn := false, ack := true, fin := false, rst := false, window := 65535, mss := none,
    wscale := none, sackOk := false, sacks := [], tstamp := none, checksumOk := true, data := [1, 2, 3] }
def packet0 (g : Segment) : Packet :=
  { v6 := false, src := 0x0A000002, dst := 0x0A000001, headerOk := true, fragment := false, routing := false, payload := .tcp g }
def frame0 (g : Segment) : Frame :=
  { fcsOk := true, dst := 0xFFFFFFFFFFFF, src := 5, vlan := none, secondTag := false, lengthField := false, octets := 64, packet := some (packet0 g), raw := [] }
def reservation0 : Reservation :=
  { sender := 9, partition := false, gen := 4, obj := 7, tlist := 0, tslot := 0, tbase := 0, size := 0, partid := 0, bytes := 256 }
def transfer0 : Transfer :=
  { sender := 9, partition := true, gen := 4, obj := 2, entry := none, soff := 0, messages := [], granules := [] }

/-- Each command just below its limits is well formed; each limit broken alone is refused. -/
theorem test_legal_commands_are_well_formed : (([.invalVAcknowledge 0 (.tile 63), .invalVAcknowledge 0 (.cluster 15), .interruptEntry 0 [(1, 255)], .vectorRaise 63 255, .vcfgWrite .host 63 255 0,
   .pendWrite .host 63 3 0, .swsetWrite .host 63 0, .lineRepairComplete (2 ^ 40 - 1), .portClaimExpiry 4095, .ethernetFrameReceive 7 (frame0 segment0),
   .messageDelimit 4095, .retransmissionTimeout 4095, .ackTimerExpiry 4095, .timeWaitExpiry 4095, .rawtxTailWrite .host 7 0, .rawrxTailWrite .host 7 0,
   .linkRetrain .west 4 none, .handoverReserve { reservation0 with obj := 4095, tlist := 63, partid := 65535 }, .handoverReserveAnswer ⟨⟨false, 4095, 0⟩, .reserved 4095⟩,
   .handoverTransfer { transfer0 with obj := 4095 }, .forwardedFrame 4095 0 7 (frame0 segment0), .forwardWindowExpiry 4095, .gateSync .host 11,
   .gateSyncComplete 7, .rattrWrite .host 11 31 0, .ledgerTick { acts := [⟨99, 0, 0, 0, 0⟩], temps := [(19, 0)] }, .clockGate 63,
   .retentionOffExpiry 63, .cryptoRetention 1, .domainWakeComplete 99, .domctlWrite .host 99 0, .linkTrainingComplete (.sudon .west 4 none),
   .ddr5TrainingComplete (List.replicate 8 (.failed 1)), .hostRead true (2 ^ 36 - 1) 4096, .hostWrite true 0 [], .rootPortLinkUp 1 5 4 0 0,
   .rootPortLinkDown 1, .macLinkUp 7, .macLinkDown 7, .registerWrite .host (2 ^ 46 - 1) 8 0, .flitReceive .west ⟨List.replicate 256 0, none⟩,
   .plan [0, 0, 0, 0], .imageReadComplete (List.replicate 512 0) []] : List Instr).all Instr.wellFormed) = true := by decide +kernel
theorem test_every_limit_is_checked : (([.invalVAcknowledge 0 (.tile 64), .invalVAcknowledge 0 (.cluster 16), .interruptEntry 0 [(1, 5), (2, 256)], .vectorRaise 64 255, .vectorRaise 63 256,
   .vcfgWrite .host 64 255 0, .vcfgWrite .host 63 256 0, .pendWrite .host 64 3 0, .pendWrite .host 63 4 0, .swsetWrite .host 64 0,
   .lineRepairComplete (2 ^ 40), .portClaimExpiry 4096, .ethernetFrameReceive 8 (frame0 segment0), .messageDelimit 4096, .retransmissionTimeout 4096,
   .ackTimerExpiry 4096, .timeWaitExpiry 4096, .rawtxTailWrite .host 8 0, .rawrxTailWrite .host 8 0, .linkRetrain .west 5 none,
   .handoverReserve { reservation0 with obj := 4096 }, .handoverReserve { reservation0 with tlist := 64 }, .handoverReserve { reservation0 with partid := 65536 }, .handoverReserve { reservation0 with tslot := 16 },
   .handoverReserveAnswer ⟨⟨false, 4095, 0⟩, .reserved 4096⟩, .handoverTransfer { transfer0 with obj := 4096 }, .forwardedFrame 4096 0 7 (frame0 segment0),
   .forwardedFrame 4095 0 8 (frame0 segment0), .forwardWindowExpiry 4096, .gateSync .host 12, .gateSyncComplete 8, .rattrWrite .host 12 31 0,
   .rattrWrite .host 11 32 0, .ledgerTick { acts := [⟨100, 0, 0, 0, 0⟩], temps := [] }, .ledgerTick { acts := [], temps := [(20, 0)] }, .clockGate 64,
   .retentionOffExpiry 64, .cryptoRetention 2, .domainWakeComplete 100, .domctlWrite .host 100 0, .linkTrainingComplete (.sudon .west 5 none),
   .ddr5TrainingComplete (List.replicate 9 (.failed 1)), .hostRead true (2 ^ 36) 8, .hostRead true 0 4097, .hostWrite true (2 ^ 36) [],
   .hostWrite true 0 (List.replicate 4097 0), .rootPortLinkUp 2 5 4 0 0, .rootPortLinkUp 1 6 4 0 0, .rootPortLinkDown 2, .macLinkUp 8, .macLinkDown 8,
   .registerWrite .host (2 ^ 46) 8 0, .registerWrite .host 0 9 0, .flitReceive .west ⟨List.replicate 255 0, none⟩, .plan [0, 0, 0],
   .imageReadComplete (List.replicate 511 0) []] : List Instr).any Instr.wellFormed) = false := by decide +kernel
/-! ### The spec's worked examples -/

/-- The four encodings worked out after R37: base, top. -/
def encoded (e b t cursor : Nat) : Cap := ⟨BitVec.ofNat 128 (cursor + e * 2 ^ 54 + b * 2 ^ 60 + t * 2 ^ 79), true⟩
theorem test_bounds_decode_as_the_spec_works_out :
    (((encoded 0 0x42A10 0x42AD8 0x42A50).base, (encoded 0 0x42A10 0x42AD8 0x42A50).top) = (0x42A10, 0x42AD8)) ∧
      ((encoded 0 0x7FF80 0x00080 0x80010).base, (encoded 0 0x7FF80 0x00080 0x80010).top) = (0x7FF80, 0x80080) ∧
      ((encoded 4 0 0x60000 0x12500000).base, (encoded 4 0 0x60000 0x12500000).top) = (0x12000000, 0x12600000) ∧
      ((encoded 16 0 0x40000 0x4300000010).base, (encoded 16 0 0x40000 0x4300000010).top) = (0x4000000000, 0x4400000000) ∧
      ((Cap.root 5).base, (Cap.root 5).top) = (0, 2 ^ 54) := by decide +kernel
/-- The rounding table after R133: coefficients at scale 3, then the result at scale 2 in each of the modes 0 to 6. -/
theorem test_rounding_table :
    ([(2345, [234, 235, 234, 234, 235, 235, 234]), (2355, [236, 236, 235, 235, 236, 236, 235]), (2341, [234, 234, 234, 234, 235, 235, 234]),
      (2349, [235, 235, 235, 234, 235, 235, 234]), (-2345, [-234, -235, -234, -234, -235, -234, -235]), (-2349, [-235, -235, -235, -234, -235, -234, -235]),
      (2340, [234, 234, 234, 234, 234, 234, 234])] : List (Int × List Int)).all
      (fun x => (List.range 7).map (fun m => moneyRound x.1 10 m) == x.2) = true := by decide +kernel
/-- MRESC runs that table's first row: 2345 at scale 3 becomes 234 at scale 2, and MINX (bit 19 of MCTL) is set; 2340 leaves MCTL alone. -/
theorem test_mresc_drops_a_digit :
    let s := withRegs [(1, money 2345), (2, int 3)] unit0
    let e := withRegs [(1, money 2340), (2, int 3)] unit0
    ((ran (.mresc 0 3 1 2 2 0 false) s).thr 0).reg 3 = money 234 ∧ ((ran (.mresc 0 3 1 2 2 0 false) s).thr 0).mctl.getLsbD 19 = true ∧
      ((ran (.mresc 0 3 1 2 2 0 false) e).thr 0).mctl = (e.thr 0).mctl := by decide +kernel
/-- The two instructions that build a 34-bit constant (R102): LIU 0x48D15 gives 0x123454000, and ORI 0x2789 the rest. -/
theorem test_liu_ori_build_a_constant :
    ((ran (.liu 0 3 0x48D15) unit0).thr 0).reg 3 = int 0x123454000 ∧
      ((ran (.ori 0 3 3 0x2789) (ran (.liu 0 3 0x48D15) unit0)).thr 0).reg 3 = int 0x123456789 := by decide +kernel
/-- VAT at 8.25 % on 1,234.57 at scale 4 (after R137): MMUL leaves 0x196148 and MINX outstanding. -/
theorem test_mmul_works_out_the_vat :
    let u := ran (.mmul 0 5 6 7 4 0 false) (withRegs [(6, money 12345700), (7, money 825)] unit0)
    (u.thr 0).outs.map (·.kind) = [.moneyMul 0x196148 0x80000] := by decide +kernel
/-- The sticky digit deciding a tie (after R137): 1.00 by 8.00 and by 7.99 at scale 2, half-even and half away. -/
theorem test_mdiv_sticky_digit :
    let q (b : Int) (m : BitVec 3) := ((ran (.mdiv 0 3 1 2 2 m false) (withRegs [(1, money 100), (2, money b)] unit0)).thr 0).outs.map (·.kind)
    q 800 0 = [.moneyDiv 12 0x80000] ∧ q 800 1 = [.moneyDiv 13 0x80000] ∧ q 799 0 = [.moneyDiv 13 0x80000] ∧ q 799 1 = [.moneyDiv 13 0x80000] := by
  decide +kernel
/-- 10^18 times 10^18 at scale 0 saturates with MSAT and MINX (after R137). -/
theorem test_mmul_saturates :
    let u := ran (.mmul 0 3 1 2 0 0 false) (withRegs [(1, money (10 ^ 18)), (2, money (10 ^ 18))] unit0)
    (u.thr 0).outs.map (·.kind) = [.moneyMul (moneyEncode (10 ^ 36 - 1)) 0x90000] := by decide +kernel
/-- Parsing "98765432109876543210" (after R143): the second MA2L appends "3210", and ML2A reads digits 19 down to 4 back. -/
theorem test_ma2l_appends_four_digits :
    let s := withRegs [(5, money 9876543210987654), (9, int 0x30313233)] unit0
    ((ran (.ma2l 0 5 5 9 4 false) s).thr 0).reg 5 = money 98765432109876543210 := by decide +kernel
theorem test_ml2a_reads_sixteen_digits :
    let s := withRegs [(5, money 98765432109876543210), (11, int 4)] unit0
    ((ran (.ml2a 0 10 5 11 0 false) s).thr 0).reg 10 = ⟨0x34353637383930313233343536373839, false⟩ := by decide +kernel
/-- The copy worked out after R161: its first iteration moves 8 bytes, its third raises CAP_BOUNDS at 0x52020, the registers kept. -/
def copies (d s n : Nat) : State :=
  withRegs [(6, ((Cap.root 0x52008).narrowTo 0x52008 36).setCursor d), (7, ((Cap.root 0x71003).narrowTo 0x71003 50).setCursor s), (8, int n)] unit0
theorem test_bmov_first_iteration :
    let u := ran (.bmov 0 6 7 8 false false) (copies 0x52008 0x71003 50)
    ((u.thr 0).reg 6).cursor = 0x52010 ∧ ((u.thr 0).reg 7).cursor = 0x7100B ∧ (u.thr 0).reg 8 = int 42 ∧ (u.thr 0).pcc = Cap.root 0x1000 := by
  decide +kernel
theorem test_bmov_third_iteration_raises :
    let s := (copies 0x52020 0x7101B 26).modThr 0 (fun th => { th.setReg 31 (Cap.root 0x9000) with evecV := Cap.root 0x8000 })
    let u := ran (.bmov 0 6 7 8 false false) s
    (u.thr 0).reg 2 = int 0x604 ∧ (u.thr 0).reg 3 = int 0x52020 ∧ ((u.thr 0).reg 6).cursor = 0x52020 ∧ (u.thr 0).reg 8 = int 26 := by
  decide +kernel
/-- The mailbox worked out after R373: a host write of 64 bytes across its end, through BAR2 and GATE_11. -/
def mailbox : State :=
  let s := { unit0 with channels := [(0, { bytes := 0x80000000, failed := none, initDone := true })],
                        boot := { unit0.boot with epLinkUp := true, step4 := true } }
  ((((s.rset (.gStart 11 0) 0x4000000).rset (.gEnd 11 0) 0x4010000).rset (.gAttr 11 0) 0x100013).rset (.gEnd 11 31) 0x40000000000).rset
    (.gAttr 11 31) 0x7F0010
theorem test_gate_11_denies_past_the_mailbox :
    let u := ran (.hostWrite true 0x400FFFE0 (List.replicate 64 1)) mailbox
    u.rget (.denyCnt 11) = 2 ∧ u.rget (.denyAddr 11) = 0x40100010 ∧ u.rget (.denyInfo 11) = 0x1FC ∧ u.byteAt 0x400FFFFF = 1 ∧
      u.byteAt 0x40100000 = 0 ∧ u.recorder.queue.map (·.code) = [0x401, 0x401] := by decide +kernel
/-- The stream worked out after R311: "HELLO" goes to offset 0, then an empty message at 5, then 20,480 bytes to discard. -/
def framed : Port := { Port.reset with state := .open, conf := 0x40000001, rxbuf := (Cap.root 0x60000).narrowTo 0x60000 0x1000, wOff := 4093 }
theorem test_framing_one :
    cutStream framed.conf framed.ring [0, 5, 0x48, 0x45, 0x4C, 0x4C, 0x4F, 0, 0, 0x50, 0] = .message 2 5 5 0 ∧ framed.place 5 = some 0 ∧
      cutStream framed.conf framed.ring [0, 0, 0x50, 0] = .message 2 0 0 0 ∧ { framed with wOff := 5 }.place 0 = some 5 ∧
      cutStream framed.conf framed.ring [0x50, 0] = .tooLong 2 20480 := by decide +kernel
/-- The page walk worked out in 10_translation.md: a 16 GiB Durable leaf of level 1 maps 0x0043_0000_0010 to 0x0023_0000_0010. -/
def mapped : State :=
  let s := { unit0 with channels := (List.range 8).map (fun n => (n, { bytes := 2 ^ 37, failed := none, initDone := true })) }
  let s := ((s.rset .durBase 0x2000000000).rset .durSize (2 ^ 34)).setGranule 0x1000000 { data := 0x10004001, tag := false, colour := 15 }
  (s.setGranule 0x1000410 { data := 0x402000000547, tag := false, colour := 15 }).modThr 0
    (fun th => { th with world := .main, level := .user, trootM := 0x10001007 })
theorem test_walk_maps_the_durable_leaf :
    (mapped.translateAs 0 .main .user 0x4300000010 ⟨true, false, false⟩ false).2 = .ok { pa := 0x2300000010, ptype := .durable, world := .main } := by
  decide +kernel
/-- CRC-32C and CRC-32 of the string "123456789" are the check values of their published definitions. -/
theorem test_crc_check_values :
    crc32c [0x31, 0x32, 0x33, 0x34, 0x35, 0x36, 0x37, 0x38, 0x39] = 0xE3069283 ∧ crc32 [0x31, 0x32, 0x33, 0x34, 0x35, 0x36, 0x37, 0x38, 0x39] = 0xCBF43926 := by
  decide +kernel
/-! ### Witnesses: issuing and registers

Each theorem shows a state and operands that meet the hypotheses of the statement it is named after, clause by clause. -/

def checked (s : State) (q : Req) : State := (s.check 0 q).1
def segsAt (s : State) (q : Req) : List Seg :=
  match (s.check 0 q).2 with
  | .ok l => l
  | _ => []
def excAt (s : State) (q : Req) : Exc :=
  match (s.check 0 q).2 with
  | .exc e => e
  | _ => { cause := 0 }
/-- The only segment of a check. -/
def segAt (s : State) (q : Req) : Seg := (segsAt s q).headD { va := 0, pa := 0, len := 0, ptype := .normal }

theorem witness_StepRunsFrontCommand : step { base with pending := [.vectorRaise 3 5] } = exec (.vectorRaise 3 5) base := rfl
theorem witness_CommandsKeepQueueAndFuses :
    exec (.add 0 3 1 2) { base with pending := [.sync 0] } = .next (ran (.add 0 3 1 2) { base with pending := [.sync 0] }) ∧
      step { base with pending := [.sync 0] } = .next (ran (.sync 0) base) := ⟨rfl, rfl⟩
theorem witness_StepKeepsMemoryForm : loaded.wf ∧ ∃ u, step { loaded with pending := [.sync 0] } = .next u := ⟨⟨by decide, by decide⟩, _, rfl⟩
theorem witness_EmptyQueueTicks : (State.reset.pending = [] ∧ State.reset.powered = false) ∧ unit0.pending = [] ∧ unit0.powered = true ∧
    ∀ w, (unit0.thr 0).st ≠ .parked w := ⟨by decide, rfl, rfl, by intro w h; cases h⟩
theorem witness_AdmissionSucceeds : base.mayIssue 0 { srcs := [1, 2], dests := [3], supervisor := true, vaultOnly := true, divider := true, moneyDivider := true } ∧
    base.fetchable 0 := ⟨by unfold State.mayIssue; decide, by refine ⟨?_, ?_, ?_, ?_, ⟨rfl, ?_⟩, ?_⟩ <;> decide⟩
theorem witness_IssueFrame : tryIssue base 0 { srcs := [1] } = .go (goes base { srcs := [1] }) ∧ (base.plate 9).abortable = false ∧
    base.threads.all (fun x => !x.2.plate.abortable) = true ∧
    (Instr.add 0 3 1 2).issuer = some 0 ∧ ((onRunner (fun th => { th with st := .empty }) base).thr 0).st ≠ .ready ∧
    { base with halted := true }.tileRuns (tileOf 0) = false := ⟨rfl, by decide⟩
/-- The runner at user level, and with a PCC that lacks SYS. -/
def userRunner : State := onRunner (fun th => { th with level := .user }) base
def noSys : State := onRunner (fun th => { th with pcc := th.pcc.setRights 0x1FFF }) base
def fetches (s : State) : Req := fetchReq (s.thr 0).pcc
theorem witness_ChecksBeforeIssue :
    (∀ s ∈ [base, userRunner, noSys], (s.thr 0).st = .ready ∧ s.tileRuns (tileOf 0) = true ∧ (s.thr 0).outs = [] ∧ (s.thr 0).parity = []) ∧
    (base.check 0 (fetches base) = (checked base (fetches base), .ok (segsAt base (fetches base)))) ∧
    (userRunner.check 0 (fetches userRunner) = (checked userRunner (fetches userRunner), .ok (segsAt userRunner (fetches userRunner)))) ∧
    noSys.check 0 (fetches noSys) = (checked noSys (fetches noSys), .ok (segsAt noSys (fetches noSys))) ∧
    (∀ s ∈ [base, userRunner, noSys], (checked s (fetches s)).missesFetch 0 (segsAt s (fetches s)) = none) := ⟨by decide, rfl, rfl, rfl, by decide⟩
theorem witness_ChecksBeforeIssue_operands :
    ((3 : BitVec 4).toNat / 4 = 0 ∧ (12 : BitVec 4).toNat % 4 = 0 ∧ 2 ≤ (2 : BitVec 4).toNat ∧ 4 ≤ (4 : BitVec 4).toNat ∧ crOf 0x107 = none ∧
      9 < (10 : BitVec 4).toNat) ∧
    ((checked userRunner (fetches userRunner)).thr 0).level = .user ∧ ((checked noSys (fetches noSys)).thr 0).level = .supervisor ∧
    ((checked noSys (fetches noSys)).thr 0).pcc.has .sys = false := by decide
theorem witness_ChecksBeforeIssue_registers : (crOf 0 = some .tid ∧ Cr.writeAt .tid = none) ∧ (crOf 0x181 = some .trootV ∧ Cr.writeAt .trootV = some .vs) ∧
    crOf 2 = some .tgrp ∧ Cr.writeAt .tgrp = some .supervisor := by decide
/-- A supervisor of the Main world, which the registers of the Vault supervisor refuse with PRIV. -/
def mainRunner : State := onRunner (fun th => { th with world := .main }) base
theorem witness_ChecksBeforeIssue_main :
    mainRunner.check 0 (fetches mainRunner) = (checked mainRunner (fetches mainRunner), .ok (segsAt mainRunner (fetches mainRunner))) ∧
      ((checked mainRunner (fetches mainRunner)).thr 0).world = .main ∧ ((checked mainRunner (fetches mainRunner)).thr 0).level = .supervisor ∧
      (checked mainRunner (fetches mainRunner)).missesFetch 0 (segsAt mainRunner (fetches mainRunner)) = none := ⟨rfl, by decide⟩

theorem witness_IntegerResults : Issues base 0 { srcs := [1, 2], dests := [3] } (goes base { srcs := [1, 2], dests := [3] }) ∧
    Issues base 0 { srcs := [1, 8], dests := [0] } (goes base { srcs := [1, 8], dests := [0] }) := ⟨⟨rfl, rfl, rfl⟩, rfl, rfl, rfl⟩
theorem witness_ImmediateResults : Issues base 0 { srcs := [1], dests := [3] } (goes base { srcs := [1], dests := [3] }) ∧
    Issues base 0 { dests := [3] } (goes base { dests := [3] }) := ⟨⟨rfl, rfl, rfl⟩, rfl, rfl, rfl⟩
theorem witness_DivideResults_issue :
    Issues base 0 { srcs := [1, 9], dests := [3], divider := true } (goes base { srcs := [1, 9], dests := [3], divider := true }) := ⟨rfl, rfl, rfl⟩
/-- A divide of -6 by 7 is outstanding. -/
def dividing : State := ran (.div 0 3 1 2) base
theorem witness_DivideResults_completion :
    (dividing.thr 0).outs[0]? = some { stamp := (goes base { srcs := [1, 2], dests := [3], divider := true }).fresh, rd := 3, te := false, kind := .divide 0 } ∧
      (dividing.thr 0).st = .ready := by decide
theorem witness_BranchResults : Issues base 0 { srcs := [9] } (goes base { srcs := [9] }) ∧ Issues base 0 {} (goes base {}) ∧
    Issues base 0 { srcs := [4] } (goes base { srcs := [4] }) ∧
    (let c := ((goes base { srcs := [4] }).thr 0).reg 4
     c.tag = true ∧ c.seal = 0 ∧ c.has .ex = true ∧ c.cursor % 4 = 0) := ⟨⟨rfl, rfl, rfl⟩, ⟨rfl, rfl, rfl⟩, ⟨rfl, rfl, rfl⟩, by decide⟩
/-- Register 4 untagged, sealed, without EX, or at an address that is no multiple of 4. -/
theorem witness_BranchResults_jr : ∀ c ∈ [int 0x2000, (Cap.root 0x2000).setSeal 5, (Cap.root 0x2000).setRights 1, Cap.root 0x2002],
    (tryIssue (withRegs [(4, c)] unit0) 0 { srcs := [4] } = .go (goes (withRegs [(4, c)] unit0) { srcs := [4] })) ∧
      (c.tag = false ∨ (c.tag = true ∧ c.seal ≠ 0) ∨ (c.tag = true ∧ c.seal = 0 ∧ c.has .ex = false) ∨
        (c.tag = true ∧ c.seal = 0 ∧ c.has .ex = true ∧ c.cursor % 4 ≠ 0)) := by
  intro c h
  simp only [List.mem_cons, List.mem_nil_iff, or_false] at h
  rcases h with rfl | rfl | rfl | rfl <;> exact ⟨rfl, by decide⟩

/-- A return address as CALL leaves it, and return stacks of 16 and of 1, in trap mode or in wrap mode. -/
def returnCap : Cap := (Cap.root 0x3000).setSeal 0xFFE
def stacked (n : Nat) (trap : Bool) : State :=
  onRunner (fun th => { th with rstack := List.replicate n { cap := returnCap, world := .vault, level := .supervisor }, rsMode := trap,
                                regs := [(4, Cap.root 0x2000), (5, returnCap)] }) unit0
theorem witness_CallResults_call : (∀ s ∈ [stacked 16 false, stacked 15 true], tryIssue s 0 {} = .go (goes s {}) ∧ s.noStop 0) ∧
    (let th := (goes (stacked 16 false) {}).thr 0
     th.rsMode = false ∧ th.plate.pdepth = 0) ∧ ((goes (stacked 15 true) {}).thr 0).rstack.length < 16 ∧
    Issues (stacked 16 true) 0 {} (goes (stacked 16 true) {}) ∧
    (let th := (goes (stacked 16 true) {}).thr 0
     th.rstack.length = 16 ∧ th.plate.pdepth = 0 ∧ th.rsMode = true) := by
  refine ⟨?_, by decide, by decide, ⟨rfl, rfl, rfl⟩, by decide⟩
  intro s h
  simp only [List.mem_cons, List.mem_nil_iff, or_false] at h
  rcases h with rfl | rfl <;> exact ⟨rfl, rfl, rfl⟩
theorem witness_CallResults_callr : Issues (stacked 1 false) 0 { srcs := [4] } (goes (stacked 1 false) { srcs := [4] }) ∧
    (let th := (goes (stacked 1 false) { srcs := [4] }).thr 0
     (th.reg 4).tag = true ∧ (th.reg 4).seal = 0 ∧ (th.reg 4).has .ex = true ∧ (th.reg 4).cursor % 4 = 0 ∧ th.rsMode = false ∧ th.plate.pdepth = 0) :=
  ⟨⟨rfl, rfl, rfl⟩, by decide⟩
theorem witness_CallResults_ret :
    let s₁ := goes (stacked 1 false) {}
    let x : RsEntry := { cap := returnCap, world := .vault, level := .supervisor }
    Issues (stacked 1 false) 0 {} s₁ ∧ (s₁.thr 0).rstack = [x] ∧ (s₁.thr 0).plate.pdepth = 0 ∧ (s₁.thr 0).parity = [] ∧ x.cap.tag = true ∧
      x.cap.seal = 0xFFE ∧ x.world = (s₁.thr 0).world ∧ x.level = (s₁.thr 0).level ∧
      ((x.cap.setSeal 0).tag = true ∧ (x.cap.setSeal 0).seal = 0 ∧ (x.cap.setSeal 0).has .ex = true ∧ (x.cap.setSeal 0).cursor % 4 = 0) :=
  ⟨⟨rfl, rfl, rfl⟩, by decide⟩
theorem witness_CallResults_rspop :
    Issues (stacked 1 false) 0 { dests := [3] } (goes (stacked 1 false) { dests := [3] }) ∧
    Issues (stacked 0 false) 0 { dests := [3] } (goes (stacked 0 false) { dests := [3] }) ∧
    (let th := (goes (stacked 1 false) { dests := [3] }).thr 0
     th.rstack = [{ cap := returnCap, world := .vault, level := .supervisor }] ∧ th.plate.pdepth = 0 ∧ th.parity = [] ∧ th.world = .vault ∧ th.level = .supervisor) ∧
    (let th := (goes (stacked 0 false) { dests := [3] }).thr 0
     th.rstack = [] ∧ th.plate.pdepth = 0 ∧ th.rsMode = false) := ⟨⟨rfl, rfl, rfl⟩, ⟨rfl, rfl, rfl⟩, by decide⟩
theorem witness_CallResults_rspush : Issues (stacked 15 true) 0 { srcs := [5] } (goes (stacked 15 true) { srcs := [5] }) ∧
    (let th := (goes (stacked 15 true) { srcs := [5] }).thr 0
     (th.reg 5).tag = true ∧ (th.reg 5).seal = 0xFFE ∧ th.level = .supervisor ∧ th.rstack.length < 16) := ⟨⟨rfl, rfl, rfl⟩, by decide⟩

theorem witness_CapabilityFields : Issues base 0 { srcs := [1], dests := [3] } (goes base { srcs := [1], dests := [3] }) ∧
    Issues base 0 { srcs := [4, 6], dests := [3] } (goes base { srcs := [4, 6], dests := [3] }) ∧
    Issues base 0 { srcs := [5, 6], dests := [3] } (goes base { srcs := [5, 6], dests := [3] }) ∧
    Issues base 0 { srcs := [5], dests := [3] } (goes base { srcs := [5], dests := [3] }) ∧
    ((base.thr 0).reg 1).tag = false ∧ ((base.thr 0).reg 4).seal = 0 ∧ ((base.thr 0).reg 5).tag = true ∧ ((base.thr 0).reg 5).seal ≠ 0 :=
  ⟨⟨rfl, rfl, rfl⟩, ⟨rfl, rfl, rfl⟩, ⟨rfl, rfl, rfl⟩, ⟨rfl, rfl, rfl⟩, by decide⟩
/-- Register 4 a capability, register 6 a length. -/
def narrows (c : Cap) (n : Nat) : State := withRegs [(4, c), (6, int n)] unit0
def smallCap : Cap := ((Cap.root 0x2000).narrowTo 0x2000 16).setRights 1
theorem witness_CapabilityNarrowing_issue :
    (∀ s ∈ [narrows (Cap.root 0x2000) 0x1000, narrows (Cap.root 0x2001) 0x80001, narrows smallCap 17, narrows (Cap.root 0x2000) (2 ^ 54 - 0x1FFF)],
      tryIssue s 0 { srcs := [4, 6], dests := [3] } = .go (goes s { srcs := [4, 6], dests := [3] }) ∧ s.noStop 0) ∧
    Issues (narrows smallCap 17) 0 { srcs := [4], dests := [3] } (goes (narrows smallCap 17) { srcs := [4], dests := [3] }) := by
  refine ⟨?_, rfl, rfl, rfl⟩
  intro s h
  simp only [List.mem_cons, List.mem_nil_iff, or_false] at h
  rcases h with rfl | rfl | rfl | rfl <;> exact ⟨rfl, rfl, rfl⟩
theorem witness_CapabilityNarrowing_clauses :
    let c := Cap.root 0x2000
    let f := fit 0x2000 0x1000
    (c.tag = true ∧ c.seal = 0 ∧ smallCap.tag = true ∧ smallCap.seal = 0) ∧
      (c.cursor + 0x1000 ≤ 2 ^ 54 ∧ c.base ≤ f.lo ∧ f.hi ≤ c.top ∧ f.lo = c.cursor ∧ f.hi = c.cursor + 0x1000) ∧
      (fit 0x2001 0x80001).lo ≠ 0x2001 ∧ smallCap.top < (fit 0x2000 17).hi ∧ 2 ^ 54 < c.cursor + (2 ^ 54 - 0x1FFF) ∧
      c.has .clr = true ∧ smallCap.has .clr = false := by decide
theorem witness_CapabilityNarrowing_refused : ∀ c ∈ [int 5, (Cap.root 0x2000).setSeal 7],
    tryIssue (narrows c 16) 0 { srcs := [4, 6], dests := [3] } = .go (goes (narrows c 16) { srcs := [4, 6], dests := [3] }) ∧
      tryIssue (narrows c 16) 0 { srcs := [4], dests := [3] } = .go (goes (narrows c 16) { srcs := [4], dests := [3] }) ∧
      (c.tag = false ∨ (c.tag = true ∧ c.seal ≠ 0)) := by
  intro c h
  simp only [List.mem_cons, List.mem_nil_iff, or_false] at h
  rcases h with rfl | rfl <;> exact ⟨rfl, rfl, by decide⟩
theorem witness_CapabilitySealing :
    let s := fun (c a : Cap) => withRegs [(4, c), (7, a)] unit0
    (∀ x ∈ [(Cap.root 0x40, Cap.root 0xFFD), (Cap.root 0x40, Cap.root 1), (Cap.root 0x40, Cap.root 0xFFF), ((Cap.root 0x40).setSeal 0xFFC, Cap.root 0xFFC)],
      tryIssue (s x.1 x.2) 0 { srcs := [4, 7], dests := [3] } = .go (goes (s x.1 x.2) { srcs := [4, 7], dests := [3] }) ∧ x.1.tag = true ∧
        x.2.tag = true ∧ x.2.seal = 0) ∧
      ((Cap.root 0x40).seal = 0 ∧ (Cap.root 0xFFD).has .seal = true ∧ (Cap.root 0xFFD).has .sys = true ∧ (Cap.root 1).cursor = 1) ∧
      ((Cap.root 0x40).setSeal 0xFFC).seal = 0xFFC ∧ (Cap.root 0xFFC).has .unsl = true ∧ (Cap.root 0xFFC).cursor = 0xFFC ∧ (Cap.root 0xFFF).cursor = 0xFFF := by
  refine ⟨?_, by decide⟩
  intro x h
  simp only [List.mem_cons, List.mem_nil_iff, or_false] at h
  rcases h with rfl | rfl | rfl | rfl <;> exact ⟨rfl, by decide⟩
/-! ### Witnesses: memory -/

/-- Thread 0 of s issues with demands p; the demands of a load, of a store. -/
def loads : State := goes loaded { srcs := [4], dests := [3] }
def loadAt (n align : Nat) : Req := loadReq (Cap.root 0x2000) 4 0x2000 n align
theorem witness_LoadResults : Issues loaded 0 { srcs := [4], dests := [3] } loads ∧
    loads.check 0 (loadAt 8 1) = (checked loads (loadAt 8 1), .ok (segsAt loads (loadAt 8 1))) ∧
    loads.check 0 (loadAt 16 16) = (checked loads (loadAt 16 16), .ok (segsAt loads (loadAt 16 16))) ∧
    (let s₂ := checked loads (loadAt 8 1)
     (s₂.thr 0).st = .ready ∧ (s₂.thr 0).stepping = false ∧ (s₂.thr 0).stopReq = false ∧ allCached s₂ (segsAt loads (loadAt 8 1)) = true ∧ (s₂.plate 0).pdepth = 0 ∧ (s₂.thr 0).outs = []) :=
  ⟨⟨rfl, rfl, rfl⟩, rfl, rfl, by decide⟩
/-- A register of the unit: an LD of TIME's register at an address of the 0x3F00 blocks. -/
def devices : State := withRegs [(4, Cap.root 0x3F0000000018)] unit0
def deviceLoad : Req := loadReq (Cap.root 0x3F0000000018) 4 0x3F0000000018 8 1
theorem witness_LoadResults_device :
    let s₁ := goes devices { srcs := [4], dests := [3] }
    Issues devices 0 { srcs := [4], dests := [3] } s₁ ∧ s₁.check 0 deviceLoad = (checked s₁ deviceLoad, .ok (segsAt s₁ deviceLoad)) ∧
      allCached (checked s₁ deviceLoad) (segsAt s₁ deviceLoad) = false ∧
      ((checked s₁ deviceLoad).loadDevice 0 ((segsAt s₁ deviceLoad).map (fun x => (x.pa, x.len)))).1.noStop 0 :=
  ⟨⟨rfl, rfl, rfl⟩, rfl, by decide, rfl, rfl⟩
theorem witness_LoadResults_exception :
    let s₁ := goes loaded { srcs := [1], dests := [3] }
    let q := loadReq ((s₁.thr 0).reg 1) 1 (((s₁.thr 0).reg 1).ea 0) 8 1
    Issues loaded 0 { srcs := [1], dests := [3] } s₁ ∧ s₁.check 0 q = (checked s₁ q, .exc (excAt s₁ q)) := ⟨⟨rfl, rfl, rfl⟩, rfl⟩
/-- The line of 0x2000 in uncorrectable error, or held by the plate of thread 9, which has committed. -/
def broken : State := { loaded with ue := [(0x80, false)] }
def heldLine (s : State) : State :=
  s.setThr 9 { Thread.reset with plate := { Thread.reset.plate with phase := .held, writes := [(0x200, { data := 0, tag := false, colour := 15 })] } }
def holding : State := heldLine loaded
def ueAt (s : State) (q : Req) : Bool × Exc :=
  match (s.check 0 q).2 with
  | .ue d e => (d, e)
  | _ => (false, { cause := 0 })
theorem witness_LoadResults_error :
    let s₁ := goes broken { srcs := [4], dests := [3] }
    Issues broken 0 { srcs := [4], dests := [3] } s₁ ∧
      s₁.check 0 (loadAt 8 1) = (checked s₁ (loadAt 8 1), .ue (ueAt s₁ (loadAt 8 1)).1 (ueAt s₁ (loadAt 8 1)).2) := ⟨⟨rfl, rfl, rfl⟩, rfl⟩
theorem witness_LoadResults_held :
    let s₁ := goes holding { srcs := [4], dests := [3] }
    Issues holding 0 { srcs := [4], dests := [3] } s₁ ∧ s₁.check 0 (loadAt 8 1) = (checked s₁ (loadAt 8 1), .wait) := ⟨⟨rfl, rfl, rfl⟩, rfl⟩
theorem witness_ValuesOfLoadsAndAtomics : (2 ^ 8 - 1 < 2 ^ 8 ∧ 2 ^ 16 - 1 < 2 ^ 16 ∧ 2 ^ 32 - 1 < 2 ^ 32) ∧ (1 : Nat) ≤ 1 := by decide
/-- A load of 8 bytes that missed. -/
def missed : State := ran (.ld 0 3 4 0 false) loaded
theorem witness_OutstandingAccesses :
    let o : Out := { stamp := (checked loads (loadAt 8 1)).fresh, rd := 3, te := false, kind := .load [(0x2000, 8)] false false true }
    (missed.thr 0).outs = [o] ∧ (missed.thr 0).st = .ready ∧ (missed.plate 0).pdepth = 0 ∧
      ([(0x2000, 8)].all (fun x => !missed.heldByOther (some 0) (x.1 / 16 / 4))) = true ∧
      (dividing.thr 0).outs.map (fun x => x.kind.isLong) = [true] := by decide
def stores : State := goes loaded { srcs := [4, 2] }
def storeAt (n align : Nat) : Req := storeReq (Cap.root 0x2000) 4 0x2000 n align []
theorem witness_StoreResults : Issues loaded 0 { srcs := [4, 2] } stores ∧
    stores.check 0 (storeAt 8 1) = (checked stores (storeAt 8 1), .ok (segsAt stores (storeAt 8 1))) ∧
    stores.check 0 (storeAt 16 16) = (checked stores (storeAt 16 16), .ok (segsAt stores (storeAt 16 16))) ∧
    (let s₂ := checked stores (storeAt 8 1)
     (s₂.thr 0).st = .ready ∧ (s₂.thr 0).stepping = false ∧ (s₂.thr 0).stopReq = false ∧ allCached s₂ (segsAt stores (storeAt 8 1)) = true ∧ (s₂.plate 0).pdepth = 0) :=
  ⟨⟨rfl, rfl, rfl⟩, rfl, rfl, by decide⟩
theorem witness_StoreResults_exception :
    let s₁ := goes loaded { srcs := [1, 2] }
    let q := storeReq ((s₁.thr 0).reg 1) 1 (((s₁.thr 0).reg 1).ea 0) 8 1 []
    Issues loaded 0 { srcs := [1, 2] } s₁ ∧ s₁.check 0 q = (checked s₁ q, .exc (excAt s₁ q)) := ⟨⟨rfl, rfl, rfl⟩, rfl⟩
theorem witness_StoreResults_held :
    let s₁ := goes holding { srcs := [4, 2] }
    Issues holding 0 { srcs := [4, 2] } s₁ ∧ s₁.check 0 (storeAt 8 1) = (checked s₁ (storeAt 8 1), .wait) := ⟨⟨rfl, rfl, rfl⟩, rfl⟩
/-- A store to a register of the unit. -/
theorem witness_StoreResults_device :
    let s₁ := goes devices { srcs := [4, 2] }
    let q := storeReq (Cap.root 0x3F0000000018) 4 0x3F0000000018 8 1 []
    let s₂ := checked s₁ q
    Issues devices 0 { srcs := [4, 2] } s₁ ∧ s₁.check 0 q = (s₂, .ok (segsAt s₁ q)) ∧ allCached s₂ (segsAt s₁ q) = false ∧ (s₂.thr 0).outs = [] ∧
      ((s₂.storeDevice 0 ((segsAt s₁ q).map (fun x => (x.pa, leBytes 8 0))) none).after).noStop 0 :=
  ⟨⟨rfl, rfl, rfl⟩, rfl, by decide, by decide, by decide +kernel, by decide +kernel⟩
theorem witness_StoreResults_painting :
    let s₁ := goes loaded { srcs := [4, 8] }
    let q := fun n => paintReq (Cap.root 0x2000) 4 n
    Issues loaded 0 { srcs := [4, 8] } s₁ ∧ s₁.check 0 (q 16) = (checked s₁ (q 16), .ok (segsAt s₁ (q 16))) ∧
      s₁.check 0 (q 64) = (checked s₁ (q 64), .ok (segsAt s₁ (q 64))) ∧
      (let s₂ := checked s₁ (q 64)
       (s₂.thr 0).st = .ready ∧ (s₂.thr 0).stepping = false ∧ (s₂.thr 0).stopReq = false ∧ ((segsAt s₁ (q 64)).all (fun x => s₂.isDram x.pa)) = true ∧ (s₂.plate 0).pdepth = 0) :=
  ⟨⟨rfl, rfl, rfl⟩, rfl, rfl, by decide⟩
/-- Stores that are not yet visible: 8 bytes at the end of a granule, a capability, a painting. -/
def storing : State := ran (.sd 0 2 4 8) loaded
def capStoring : State := ran (.sc 0 5 4 16) loaded
def painting : State := ran (.cpaint 0 4 8) loaded
theorem witness_StoreVisibility :
    ((storing.thr 0).st = .ready ∧ (storing.thr 0).stores.map (·.writes) = [[.bytes 0x2008 [7, 0, 0, 0, 0, 0, 0, 0]]] ∧
        ((storing.thr 0).stores.all (storeMayComplete storing 0 0)) = true ∧ 0x2008 % 16 + 8 ≤ 16) ∧
      ((capStoring.thr 0).st = .ready ∧ (capStoring.thr 0).stores.map (·.writes) = [[.cap 0x201 ((Cap.root 0x40).setSeal 0x55)]] ∧
        ((capStoring.thr 0).stores.all (storeMayComplete capStoring 0 0)) = true) ∧
      (painting.thr 0).st = .ready ∧ (painting.thr 0).stores.map (·.writes) = [[.paint 0x200 3]] ∧
        ((painting.thr 0).stores.all (storeMayComplete painting 0 0)) = true := by decide
/-- A LIVE plate of thread 0. -/
def inPlate : State := ran (.pbegin 0 9 50) loaded
theorem witness_PlateAccesses_load :
    let s₁ := goes inPlate { srcs := [4], dests := [3] }
    let s₂ := checked s₁ (loadAt 8 1)
    let x := segAt s₁ (loadAt 8 1)
    Issues inPlate 0 { srcs := [4], dests := [3] } s₁ ∧ s₁.check 0 (loadAt 8 1) = (s₂, .ok [x]) ∧
      ((s₂.thr 0).st = .ready ∧ (s₂.thr 0).stepping = false ∧ (s₂.thr 0).stopReq = false ∧ (s₂.plate 0).pdepth ≠ 0 ∧ allCached s₂ [x] = true ∧ (s₂.thr 0).outs = [] ∧ s₂.movingLine (x.pa / 64) = false) ∧
      (Map.get [] s₂.l2 (clusterOf 0)).length < 15 ∧ (s₂.plate 0).reads.length < 1024 ∧ s₂.bufferUsed (tileOf 0) < 256 :=
  ⟨⟨rfl, rfl, rfl⟩, rfl, by decide⟩
theorem witness_PlateAccesses_store :
    let s₁ := goes inPlate { srcs := [4, 2] }
    let s₂ := checked s₁ (storeAt 8 1)
    let x := segAt s₁ (storeAt 8 1)
    Issues inPlate 0 { srcs := [4, 2] } s₁ ∧ s₁.check 0 (storeAt 8 1) = (s₂, .ok [x]) ∧ x.va = 0x2000 ∧ x.len = 8 ∧
      ((s₂.thr 0).st = .ready ∧ (s₂.thr 0).stepping = false ∧ (s₂.thr 0).stopReq = false ∧ (s₂.plate 0).pdepth ≠ 0 ∧ allCached s₂ [x] = true ∧ (s₂.thr 0).outs = [] ∧ s₂.movingLine (x.pa / 64) = false) ∧
      (Map.get [] s₂.l2 (clusterOf 0)).length < 15 ∧ (s₂.plate 0).reads.length < 1024 ∧ s₂.bufferUsed (tileOf 0) < 256 :=
  ⟨⟨rfl, rfl, rfl⟩, rfl, by decide⟩
/-- Register 5 a local capability, register 4 a capability without STL or with it. -/
def locals (c : Cap) : State := withRegs [(4, c), (5, (Cap.root 0).dropGl)] unit0
theorem witness_LocalCapabilityStores :
    let c := (Cap.root 0x2000).setRights 0x1F
    let v := (Cap.root 0).dropGl
    Issues (locals c) 0 { srcs := [4, 5] } (goes (locals c) { srcs := [4, 5] }) ∧
      ((goes (locals c) { srcs := [4, 5] }).thr 0).reg 4 = c ∧ ((goes (locals c) { srcs := [4, 5] }).thr 0).reg 5 = v ∧
      (v.tag = true ∧ v.has .gl = false ∧ c.tag = true ∧ c.seal = 0 ∧ c.has .stl = false ∧ c.has .st = true ∧ c.has .stc = true) ∧
      ((Cap.root 0x2000).has .stl = true ∧ (Cap.root 0x2000).has .st = true ∧ (Cap.root 0x2000).has .stc = true ∧ (Cap.root 0x2000).base ≤ 0x2000 ∧
        0x2000 + 16 ≤ (Cap.root 0x2000).top ∧ 0x2000 % 16 = 0) := ⟨⟨rfl, rfl, rfl⟩, rfl, rfl, by decide⟩
theorem witness_ColourCheck :
    let s := loaded.setGranule 0x200 { data := 5, tag := false, colour := 3 }
    let x : Seg := { va := 0x2000, pa := 0x2000, len := 8, ptype := .normal }
    let q := loadAt 8 1
    q.paint = false ∧ x.ptype ≠ .device ∧ s.isDram x.pa = true ∧ s.ueFor 0 q.want (x.pa / 64) = false ∧ s.colourFor 0 0 q.want.ex (x.pa / 16) = 3 ∧
      q.cap.colour ≠ 3 ∧ (3 : BitVec 4) ≠ 15 ∧ (q.cap.setColour 15).colour = 15 := by decide
theorem witness_PrefetchIsSilent : Issues loaded 0 { srcs := [4] } (goes loaded { srcs := [4] }) := ⟨rfl, rfl, rfl⟩
theorem witness_AtomicResults :
    let s₁ := goes loaded { srcs := [4, 2], dests := [3] }
    let q := atomicReq (Cap.root 0x2000) 4 8 []
    let s₂ := checked s₁ q
    let x := segAt s₁ q
    Issues loaded 0 { illegal := atomicIllegal .add 1, srcs := [4, 2], dests := [3] } s₁ ∧ s₁.check 0 q = (s₂, .ok [x]) ∧
      ((s₂.thr 0).st = .ready ∧ (s₂.thr 0).stepping = false ∧ (s₂.thr 0).stopReq = false ∧ s₂.isDram x.pa = true ∧ (s₂.plate 0).pdepth = 0 ∧ (s₂.plate 0).writes = [] ∧
        (s₂.thr 0).outs = [] ∧ (s₂.thr 0).stores = []) := ⟨⟨rfl, rfl, rfl⟩, rfl, by decide⟩
theorem witness_AtomicResults_cas :
    let s₁ := goes loaded { srcs := [4, 5, 3], dests := [3] }
    let q := atomicReq (Cap.root 0x2000) 4 16 (.ldc :: capStoreRights ((Cap.root 0x40).setSeal 0x55))
    let s₂ := checked s₁ q
    let x := segAt s₁ q
    Issues loaded 0 { illegal := atomicIllegal .cas 3, srcs := [4, 5, 3], dests := [3] } s₁ ∧ s₁.check 0 q = (s₂, .ok [x]) ∧
      ((s₂.thr 0).st = .ready ∧ (s₂.thr 0).stepping = false ∧ (s₂.thr 0).stopReq = false ∧ s₂.isDram x.pa = true ∧ (s₂.plate 0).pdepth = 0 ∧ (s₂.plate 0).writes = [] ∧
        (s₂.thr 0).outs = [] ∧ (s₂.thr 0).stores = []) := ⟨⟨rfl, rfl, rfl⟩, rfl, by decide⟩
/-- An ADD of 16 bytes is illegal; an atomic at an address with no DRAM. -/
def farAway : State :=
  let page : TlbEntry := { asid := 7, world := .vault, level := 1, page := 16, leaf := true, entry := 0x40200000050F, bad := false }
  let s := { unit0 with channels := [(0, { bytes := 2 ^ 37, failed := none, initDone := true })],
                        tiles := [(0, { Tile.reset with l1i := [(0x8C000040, [])], tlb := [page] })] }
  onRunner (fun th => { th with trootV := 0x10001007, pcc := Cap.root 0x4300001000 }) (withRegs [(4, Cap.root 0x4300000010), (2, int 7)] s)
theorem witness_AtomicResults_away :
    let s₁ := goes farAway { srcs := [4, 2], dests := [3] }
    let q := atomicReq (Cap.root 0x4300000010) 4 8 []
    let s₂ := checked s₁ q
    let x := segAt s₁ q
    Issues farAway 0 { illegal := atomicIllegal .add 1, srcs := [4, 2], dests := [3] } s₁ ∧ s₁.check 0 q = (s₂, .ok [x]) ∧
      ((s₂.thr 0).st = .ready ∧ (s₂.thr 0).stepping = false ∧ (s₂.thr 0).stopReq = false ∧ s₂.isDram x.pa = false ∧ (s₂.thr 0).outs = [] ∧
        (s₂.thr 0).stores = []) := by
  exact ⟨issues_of _ _ (by decide +kernel), by decide +kernel, by decide +kernel⟩
theorem witness_FenceResults :
    Issues loaded 0 {} (goes loaded {}) ∧ Issues missed 0 {} (goes missed {}) ∧ Issues storing 0 {} (goes storing {}) ∧ Issues inPlate 0 {} (goes inPlate {}) ∧
    ((5 : BitVec 4).toNat / 4 ≠ 0 ∧ (5 : BitVec 4).toNat % 4 ≠ 0 ∧ ((goes loaded {}).thr 0).fenceHolds 5 = false ∧
      ((goes storing {}).thr 0).fenceHolds 5 = true ∧ ((goes storing {}).thr 0).plate.pdepth = 0) ∧
    ((goes loaded {}).thr 0).outs = [] ∧ ((goes missed {}).thr 0).outs ≠ [] ∧ ((goes loaded {}).thr 0).stores = [] ∧
      ((goes loaded {}).thr 0).plate.pdepth = 0 ∧ ((goes storing {}).thr 0).stores ≠ [] ∧ ((goes inPlate {}).thr 0).plate.pdepth ≠ 0 :=
  ⟨⟨rfl, rfl, rfl⟩, ⟨rfl, rfl, rfl⟩, ⟨rfl, rfl, rfl⟩, ⟨rfl, rfl, rfl⟩, by decide⟩
/-! ### Witnesses: system instructions, money, block instructions -/

/-- Register 4 an entry capability into the other world; BRK claimed. -/
def entering : State := withRegs [(4, (Cap.root 0x2000).setSeal 0xFFD)] loaded
def claimedBrk : State := onRunner (fun th => { th with brkClaim := true }) loaded
theorem witness_SystemCalls :
    Issues loaded 0 {} (goes loaded {}) ∧ Issues claimedBrk 0 {} (goes claimedBrk {}) ∧ ((goes loaded {}).thr 0).plate.pdepth = 0 ∧
      ((goes loaded {}).thr 0).brkClaim = false ∧ ((goes claimedBrk {}).thr 0).brkClaim = true ∧ ((goes claimedBrk {}).thr 0).plate.pdepth = 0 :=
  ⟨⟨rfl, rfl, rfl⟩, ⟨rfl, rfl, rfl⟩, by decide⟩
theorem witness_SystemCalls_wcall :
    let s₁ := goes entering { srcs := [4] }
    let x : Trans := { pa := 0x2000, ptype := .normal, world := .main }
    let c := (s₁.thr 0).reg 4
    Issues entering 0 { srcs := [4] } s₁ ∧ s₁.translateAs 0 .main .supervisor 0x2000 ⟨false, false, true⟩ false = (s₁, .ok x) ∧ s₁.noStop 0 ∧
      x.world = (if (s₁.thr 0).world = .main then .vault else .main) ∧ c.tag = true ∧ c.seal = 0xFFD ∧ c.has .ex = true ∧ c.has .sys = true ∧ c.cursor % 4 = 0 ∧
      (s₁.thr 0).plate.pdepth = 0 := ⟨⟨rfl, rfl, rfl⟩, rfl, ⟨rfl, rfl⟩, by decide⟩
/-- An exception frame at 0x3000, its first granule sealed with type 0xFFF, or an integer. -/
def frameValuesAt (first : Cap) : List Cap :=
  [first, Cap.root 0x5000, int 9, int 0x55, Cap.root 0x6000, int 1, int 2, int 3]
def framedAt (first : Cap) : State :=
  withRegs [(1, Cap.root 0x3000)] ((List.range 8).foldl (fun s i =>
    let c := ((frameValuesAt first)[i]?).getD Cap.null
    s.setGranule (0x300 + i) { data := c.bits, tag := c.tag, colour := 15 }) unit0)
def returns (first : Cap) : State := goes (framedAt first) { supervisor := true, srcs := [1], dests := [1, 2, 3, 31] }
def frameSegs (first : Cap) : List Seg :=
  match (frameChecks (returns first) 0 (Cap.root 0x3000) 8 0).2 with
  | .ok l => l
  | _ => []
theorem witness_ExceptionReturn :
    let first := statusGranule .vault .user 3
    let r := frameValues (returns first) 0 true (frameSegs first)
    Issues (framedAt first) 0 { supervisor := true, srcs := [1], dests := [1, 2, 3, 31] } (returns first) ∧
      frameChecks (returns first) 0 (((returns first).thr 0).reg 1) 8 0 = (returns first, .ok (frameSegs first)) ∧ r.1.noStop 0 ∧
      ((returns first).plate 0).pdepth = 0 ∧ (((returns first).thr 0).reg 1).has .ldc = true ∧
      (let f := (r.2[0]?).getD Cap.null
       f.tag = true ∧ f.seal = 0xFFF ∧ f.cursor % 4 ≤ 1 ∧ (f.cursor / 4 % 2 = 1 ↔ ((returns first).thr 0).world = .vault)) :=
  ⟨⟨rfl, rfl, rfl⟩, rfl, ⟨rfl, rfl⟩, by decide +kernel⟩
theorem witness_ExceptionReturn_forged :
    let r := frameValues (returns (int 5)) 0 true (frameSegs (int 5))
    Issues (framedAt (int 5)) 0 { supervisor := true, srcs := [1], dests := [1, 2, 3, 31] } (returns (int 5)) ∧
      frameChecks (returns (int 5)) 0 (((returns (int 5)).thr 0).reg 1) 8 0 = (returns (int 5), .ok (frameSegs (int 5))) ∧ r.1.noStop 0 ∧
      ((returns (int 5)).plate 0).pdepth = 0 ∧ ((r.2[0]?).getD Cap.null).tag = false := ⟨⟨rfl, rfl, rfl⟩, rfl, ⟨rfl, rfl⟩, by decide⟩
/-- Starts thread 9, the second of tile 1, at supervisor level. -/
def starting : State := withRegs [(1, int (512 + 9)), (2, Cap.root 0x4000), (3, int 77)] unit0
def asked : State := ran (.tstart 0 1 2 3) starting
theorem witness_ThreadStart_ask :
    let s₁ := goes starting { supervisor := true, srcs := [1, 2, 3], dests := [1] }
    Issues starting 0 { supervisor := true, srcs := [1, 2, 3], dests := [1] } s₁ ∧
      (let c := (s₁.thr 0).reg 2
       (s₁.thr 0).plate.pdepth = 0 ∧ c.tag = true ∧ c.seal = 0 ∧ c.has .ex = true ∧ c.cursor % 4 = 0) := ⟨⟨rfl, rfl, rfl⟩, by decide⟩
theorem witness_ThreadStart_answer :
    (∀ s ∈ [asked.rset .planTiles 3, asked.rset .planTiles 1, (asked.rset .planTiles 3).modThr 9 (fun th => { th with st := .stopped })],
        (s.thr 0).st = .waiting (.tstart 1 9 .supervisor (Cap.root 0x4000) (int 77)) ∧ s.power (tileOf 0) = .active ∧ (s.thr 0).stepping = false ∧
          (s.thr 0).stopReq = false) ∧
      (9 : Tid) ≠ 0 ∧ ((asked.rset .planTiles 3).rget .planTiles).getLsbD (tileOf 9) = true ∧ (asked.thr 9).st = .empty ∧ asked.power (tileOf 9) = .active ∧
      ((asked.rset .planTiles 1).rget .planTiles).getLsbD (tileOf 9) = false := by decide
theorem witness_ThreadStart_exit : Issues loaded 0 {} (goes loaded {}) ∧ ((goes loaded {}).plate 0).pdepth = 0 ∧ ((goes loaded {}).thr 0).outs = [] :=
  ⟨⟨rfl, rfl, rfl⟩, by decide⟩
/-- INVAL.V of everything, and its broadcast with only cluster 3 left to answer. -/
def invalidating : State := ran (.invalV 0 2) loaded
def lastAnswer : State := { invalidating with invals := invalidating.invals.map (fun i => { i with tiles := [], clusters := [3] }) }
theorem witness_BroadcastInvalidation :
    Issues loaded 0 { supervisor := true, srcs := [2] } (goes loaded { supervisor := true, srcs := [2] }) ∧
      (let s₁ := goes loaded { supervisor := true, srcs := [2] }
       (s₁.plate 0).pdepth = 0 ∧ (s₁.thr 0).stores = [] ∧ (s₁.thr 0).world = .vault) ∧
      (invalidating.invals.length = 1 ∧ ∀ i ∈ invalidating.invals, i.tid = 0 ∧ 3 ∈ i.clusters ∧ i.tiles ≠ []) ∧
      (lastAnswer.invals.length = 1 ∧ ∀ i ∈ lastAnswer.invals, i.tid = 0 ∧ i.clusters = [3] ∧ i.tiles = []) ∧
      (lastAnswer.thr 0).st = .waiting .inval ∧ (lastAnswer.thr 0).stepping = false ∧ (lastAnswer.thr 0).stopReq = false ∧ lastAnswer.power (tileOf 0) = .active :=
  ⟨⟨rfl, rfl, rfl⟩, by decide⟩
theorem witness_ControlRegisters :
    crOf 0 = some .tid ∧ Issues loaded 0 (crrPre 3 0) (goes loaded (crrPre 3 0)) ∧
      (∃ n, crOf n = some .tgrp ∧ Issues loaded 0 (crwPre n 4) (goes loaded (crwPre n 4))) ∧ ((goes loaded (crwPre 2 4)).plate 0).pdepth = 0 :=
  ⟨by decide, ⟨rfl, rfl, rfl⟩, ⟨2, by decide, rfl, rfl, rfl⟩, by decide⟩
theorem witness_CapabilityControlRegisters :
    Issues loaded 0 (crwPre 0x100 5) (goes loaded (crwPre 0x100 5)) ∧ Issues loaded 0 (crrPre 3 0x109) (goes loaded (crrPre 3 0x109)) :=
  ⟨⟨rfl, rfl, rfl⟩, rfl, rfl, rfl⟩

/-- Registers 1 and 2 two amounts; the same with every money trap enabled. -/
def amounts (a b : Int) : State := withRegs [(1, money a), (2, money b)] unit0
def trapping (a b : Int) : State := onRunner (fun th => { th with mctl := 0x7002 }) (amounts a b)
def sums : Pre := moneyPre 3 1 2 2 0 false
def quotients : Pre := moneyPre 3 1 2 2 0 true
theorem witness_MoneySums :
    Issues (amounts (10 ^ 36 - 1) 0) 0 sums (goes (amounts (10 ^ 36 - 1) 0) sums) ∧
      Issues (trapping (10 ^ 36 - 1) 1) 0 sums (goes (trapping (10 ^ 36 - 1) 1) sums) ∧
      Issues (amounts (-(10 ^ 36 - 1)) 1) 0 sums (goes (amounts (-(10 ^ 36 - 1)) 1) sums) ∧
      (moneyOperand (money (10 ^ 36 - 1)).bits = .value (10 ^ 36 - 1) ∧ moneyOperand (money (-(10 ^ 36 - 1))).bits = .value (-(10 ^ 36 - 1)) ∧
        moneyOperand (money 1).bits = .value 1 ∧ moneyOperand (money 0).bits = .value 0) ∧
      ((10 ^ 36 - 1 + 0 : Int).natAbs < 10 ^ 36 ∧ 10 ^ 36 ≤ (10 ^ 36 - 1 + 1 : Int).natAbs ∧ 10 ^ 36 ≤ (-(10 ^ 36 - 1) - 1 : Int).natAbs) ∧
      ((goes (trapping (10 ^ 36 - 1) 1) sums).thr 0).mctl.getLsbD 12 = true := ⟨⟨rfl, rfl, rfl⟩, ⟨rfl, rfl, rfl⟩, ⟨rfl, rfl, rfl⟩, by decide⟩
theorem witness_MoneyRounding : (0 < 10 ∧ 6 ≤ 6) ∧ 2 * (moneyRound 25 10 0 * 10 - 25).natAbs = 10 ∧ 2 * (moneyRound 25 10 1 * 10 - 25).natAbs = 10 ∧
    2 * (moneyRound 25 10 2 * 10 - 25).natAbs = 10 := by decide
theorem witness_MoneyProducts_issue :
    Issues (amounts 1005 (-95)) 0 sums (goes (amounts 1005 (-95)) sums) ∧ Issues (amounts 1005 (-95)) 0 quotients (goes (amounts 1005 (-95)) quotients) ∧
      Issues (trapping 1005 0) 0 quotients (goes (trapping 1005 0) quotients) ∧ Issues (amounts 1005 0) 0 quotients (goes (amounts 1005 0) quotients) ∧
      Issues (amounts 1005 3) 0 sums (goes (amounts 1005 3) sums) :=
  ⟨⟨rfl, rfl, rfl⟩, ⟨rfl, rfl, rfl⟩, ⟨rfl, rfl, rfl⟩, ⟨rfl, rfl, rfl⟩, rfl, rfl, rfl⟩
theorem witness_MoneyProducts_operands :
    (∀ s ∈ [amounts 1005 (-95), trapping 1005 0, amounts 1005 0, amounts 1005 3], moneyScale 2 0 ((goes s sums).thr 0).mctl = some (2, 0) ∧
        moneyOperand ((s.thr 0).reg 1).bits = .value 1005) ∧
      moneyOperand (money (-95)).bits = .value (-95) ∧ moneyOperand (money 0).bits = .value 0 ∧ moneyOperand (money 3).bits = .value 3 ∧
      (money 3).bits.toNat % 64 ≤ 35 ∧ ((goes (trapping 1005 0) quotients).thr 0).mctl.getLsbD 13 = true ∧
      (moneyRound (1005 * -95) (10 ^ 2) 0).natAbs < 10 ^ 36 ∧ (moneyRound (-1005 * 10 ^ 2) 95 0).natAbs < 10 ^ 36 ∧ (moneyRound (1005 * 10 ^ 2) (10 ^ 3) 0).natAbs < 10 ^ 36 := by
  decide
/-- A trapping division by zero and a product, outstanding. -/
def trapWaits : State := ran (.mdiv 0 3 1 2 2 0 true) (trapping 1005 0)
def productWaits : State := ran (.mmul 0 3 1 2 2 0 false) (amounts 1005 3)
theorem witness_MoneyProducts_completion :
    (trapWaits.thr 0).outs.map (·.kind) = [.moneyTrap true 0x0E] ∧ (productWaits.thr 0).outs.map (·.kind) = [.moneyMul 30 0x80000] ∧
      (productWaits.thr 0).st = .ready := by decide
theorem witness_MoneyUnaryAndVoid :
    Issues (amounts 1005 (-3)) 0 { srcs := [1], dests := [3] } (goes (amounts 1005 (-3)) { srcs := [1], dests := [3] }) ∧
      Issues (amounts 1005 (-3)) 0 { srcs := [1, 2], dests := [3] } (goes (amounts 1005 (-3)) { srcs := [1, 2], dests := [3] }) ∧
      (moneyOperand (money 1005).bits = .value 1005 ∧ moneyOperand (money (-3)).bits = .value (-3) ∧ (1005 : Int).natAbs < 2 ^ 63 ∧ (9 : BitVec 4).toNat ≤ 9) :=
  ⟨⟨rfl, rfl, rfl⟩, ⟨rfl, rfl, rfl⟩, by decide⟩
/-- Register 1 a VOID amount, or a malformed one with the traps enabled. -/
def odd (q : Quad) : State := onRunner (fun th => { th with mctl := 0x7002 }) (withRegs [(1, Cap.ofQuad q), (2, money 5)] unit0)
theorem witness_MoneyUnaryAndVoid_void :
    Issues (odd (1 <<< 127)) 0 sums (goes (odd (1 <<< 127)) sums) ∧ Issues (odd 0x3FFF) 0 sums (goes (odd 0x3FFF) sums) ∧
      Issues (odd (1 <<< 127)) 0 { srcs := [1], dests := [3] } (goes (odd (1 <<< 127)) { srcs := [1], dests := [3] }) ∧
      Issues (odd (1 <<< 127)) 0 { srcs := [1, 2], dests := [3] } (goes (odd (1 <<< 127)) { srcs := [1, 2], dests := [3] }) ∧
      ((1 <<< 127 : Quad).getLsbD 127 = true ∧ moneyOperand 0x3FFF = .malformed ∧ (money 5).bits.getLsbD 127 = false ∧
        ((goes (odd 0x3FFF) sums).thr 0).mctl.getLsbD 14 = true) :=
  ⟨⟨rfl, rfl, rfl⟩, ⟨rfl, rfl, rfl⟩, ⟨rfl, rfl, rfl⟩, ⟨rfl, rfl, rfl⟩, by decide⟩
/-- Register 2 the digits "34", or a position. -/
def text (n : Nat) : State := withRegs [(1, money (-12)), (2, int n)] unit0
theorem witness_MoneyText :
    Issues (text 0x3433) 0 { srcs := [1, 2], dests := [3] } (goes (text 0x3433) { srcs := [1, 2], dests := [3] }) ∧
      moneyOperand (money (-12)).bits = .value (-12) ∧ (∀ i, i < 2 → 0x30 ≤ 0x3433 / 256 ^ i % 256 ∧ 0x3433 / 256 ^ i % 256 ≤ 0x39) ∧
      (34 : Nat) = (List.range 2).foldl (fun x i => 10 * x + (0x3433 / 256 ^ i % 256 - 0x30)) 0 ∧ 12 * 10 ^ 2 + 34 < 10 ^ 36 :=
  ⟨⟨rfl, rfl, rfl⟩, by decide⟩

/-- Register 1 a capability to check, register 2 a count. -/
def counts (c : Cap) (n : Nat) : State := withRegs [(1, c), (2, int n), (3, int 8)] unit0
def object16 : Cap := (Cap.root 0x100).narrowTo 0x100 16
theorem witness_BlockChecks_bchk :
    Issues (counts object16 16) 0 { srcs := [1, 2] } (goes (counts object16 16) { srcs := [1, 2] }) ∧
      (object16.tag = true ∧ object16.seal = 0 ∧ (2 : BitVec 10) &&& ~~~(object16.rights.setWidth 10) = 0 ∧ object16.base ≤ object16.cursor ∧
        object16.cursor + 16 ≤ object16.top ∧ object16.top < object16.cursor + 17) ∧
      (int 5).tag = false ∧ ((Cap.root 0x100).setSeal 5).tag = true ∧ ((Cap.root 0x100).setSeal 5).seal ≠ 0 ∧
      (1 : BitVec 10) &&& ~~~((object16.setRights 2).rights.setWidth 10) ≠ 0 := ⟨⟨rfl, rfl, rfl⟩, by decide⟩
theorem witness_BlockChecks_zero :
    Issues (counts object16 0) 0 { srcs := [3, 1, 2], dests := [3, 1, 2] } (goes (counts object16 0) { srcs := [3, 1, 2], dests := [3, 1, 2] }) ∧
      Issues (counts object16 0) 0 { srcs := [3, 1, 2], dests := [3, 2] } (goes (counts object16 0) { srcs := [3, 1, 2], dests := [3, 2] }) ∧
      ((counts object16 0).thr 0).reg 2 = int 0 ∧ sameRegs 3 1 2 = false := ⟨⟨rfl, rfl, rfl⟩, ⟨rfl, rfl, rfl⟩, by decide⟩
/-- Register 3 at 0x2004, register 1 a byte or a second string, register 2 a count; memory at 0x2000 holds 89 88 87 86 85 84 83 82. -/
def strings (c : Cap) (n : Nat) : State := withRegs [(3, Cap.root 0x2004), (1, c), (2, int n)] loaded
def fills (c : Cap) (n : Nat) : State := goes (strings c n) { srcs := [3, 1, 2], dests := [3, 2] }
def moves (c : Cap) (n : Nat) : State := goes (strings c n) { srcs := [3, 1, 2], dests := [3, 1, 2] }
def at2004 (n : Nat) (wr : Bool) : Req := if wr then storeReq (Cap.root 0x2004) 3 0x2004 n 1 [] else loadReq (Cap.root 0x2004) 3 0x2004 n 1
theorem witness_BlockIterations_fill :
    let s₂ := checked (fills (int 0x84) 50) (at2004 12 true)
    let x := segAt (fills (int 0x84) 50) (at2004 12 true)
    Issues (strings (int 0x84) 50) 0 { srcs := [3, 1, 2], dests := [3, 2] } (fills (int 0x84) 50) ∧
      (fills (int 0x84) 50).check 0 (at2004 12 true) = (s₂, .ok [x]) ∧ (∀ r, (s₂.thr 0).reg r = ((fills (int 0x84) 50).thr 0).reg r) ∧
      (min 50 (16 - 0x2004 % 16) = 12 ∧ sameRegs 3 1 2 = false ∧ (s₂.thr 0).stepping = false ∧ (s₂.thr 0).stopReq = false ∧ (s₂.thr 0).st = .ready ∧
        allCached s₂ [x] = true ∧ (s₂.plate 0).pdepth = 0 ∧ (s₂.thr 0).outs = [] ∧ x.va = 0x2004 ∧ x.len = 12) :=
  ⟨⟨rfl, rfl, rfl⟩, rfl, fun _ => rfl, by decide⟩
theorem witness_BlockIterations_scan :
    (∀ n ∈ [(0x84, 5), (0x00, 5)],
        (fills (int n.1) n.2).check 0 (at2004 5 false) = (checked (fills (int n.1) n.2) (at2004 5 false), .ok [segAt (fills (int n.1) n.2) (at2004 5 false)])) ∧
      (let s₂ := checked (fills (int 0x84) 5) (at2004 5 false)
       let bytes := leBytes 5 (s₂.viewSegs 0 s₂.fresh [(0x2004, 5)])
       firstByte (· == 0x84) bytes = some 1 ∧ firstByte (· == 0x00) bytes = none) := by
  refine ⟨?_, by decide⟩
  intro n h
  simp only [List.mem_cons, List.mem_nil_iff, or_false] at h
  rcases h with rfl | rfl <;> rfl
/-- What a load of segments at DRAM answers, and the state after it. -/
def dramAfter (s : State) (ps : List (Nat × Nat)) : State × Nat :=
  match s.loadDram 0 s.fresh ps with
  | .ok u v => (u, v)
  | _ => (s, 0)
theorem witness_BlockIterations_compare :
    let s₁ := moves (Cap.root 0x2004) 5
    let s₂ := checked s₁ (at2004 5 false)
    let r := dramAfter s₂ [(0x2004, 5)]
    let q := loadReq (Cap.root 0x2004) 1 0x2004 5 1
    let y := segAt r.1 q
    Issues (strings (Cap.root 0x2004) 5) 0 { srcs := [3, 1, 2], dests := [3, 1, 2] } s₁ ∧ s₁.check 0 (at2004 5 false) = (s₂, .ok [segAt s₁ (at2004 5 false)]) ∧
      s₂.loadDram 0 s₂.fresh [((segAt s₁ (at2004 5 false)).pa, (segAt s₁ (at2004 5 false)).len)] = .ok r.1 r.2 ∧
      r.1.check 0 q = (checked r.1 q, .ok [y]) ∧ (checked r.1 q).thr 0 = s₂.thr 0 ∧ allCached (checked r.1 q) [y] = true ∧
      firstDifference (leBytes 5 r.2) (leBytes 5 ((checked r.1 q).viewSegs 0 (checked r.1 q).fresh [(y.pa, y.len)])) = none :=
  ⟨⟨rfl, rfl, rfl⟩, rfl, rfl, rfl, rfl, by decide, by decide⟩
theorem witness_BlockIterations_difference :
    let s₁ := moves (Cap.root 0x2005) 5
    let s₂ := checked s₁ (at2004 5 false)
    let r := dramAfter s₂ [(0x2004, 5)]
    let q := loadReq (Cap.root 0x2005) 1 0x2005 5 1
    let y := segAt r.1 q
    r.1.check 0 q = (checked r.1 q, .ok [y]) ∧
      firstDifference (leBytes 5 r.2) (leBytes 5 ((checked r.1 q).viewSegs 0 (checked r.1 q).fresh [(y.pa, y.len)])) = some 0 := ⟨rfl, by decide⟩
theorem witness_BlockIterations_move :
    let s₁ := moves (Cap.root 0x2004) 5
    let q := loadReq (Cap.root 0x2004) 1 0x2004 5 1
    let s₂ := checked s₁ q
    let x := segAt s₁ q
    let r := dramAfter s₂ [(x.pa, x.len)]
    let y := segAt r.1 (at2004 5 true)
    let s₄ := checked r.1 (at2004 5 true)
    s₁.check 0 q = (s₂, .ok [{ x with va := 0x2004 }]) ∧ s₂.loadDram 0 s₂.fresh [(x.pa, x.len)] = .ok r.1 r.2 ∧
      r.1.check 0 (at2004 5 true) = (s₄, .ok [y]) ∧ s₄.thr 0 = s₂.thr 0 ∧ allCached s₄ [y] = true ∧ y.va = 0x2004 ∧ y.len = 5 :=
  ⟨rfl, rfl, rfl, rfl, by decide, by decide, by decide⟩
/-! ### Witnesses: plates, exceptions, interrupts, ports -/

def begins (s : State) : State := goes s { dests := [3] }
/-- A plate of depth 7; group 0 of work class 2, which the plan parks. -/
def deepPlate : State := onRunner (fun th => { th with plate := { th.plate with pdepth := 7 } }) inPlate
def outOfEnergy : State := ((loaded.rset .bwCtrl 1).rset .classmap 2).rset .plan 0x100
theorem witness_PlateBegins :
    Issues loaded 0 { dests := [3] } (begins loaded) ∧ Issues outOfEnergy 0 { dests := [3] } (begins outOfEnergy) ∧
      Issues storing 0 { dests := [3] } (begins storing) ∧ Issues inPlate 0 { dests := [3] } (begins inPlate) ∧ Issues deepPlate 0 { dests := [3] } (begins deepPlate) ∧
      (((begins loaded).thr 0).plate.pdepth = 0 ∧ ((begins loaded).thr 0).outs = [] ∧ ((begins loaded).thr 0).stores = [] ∧
        (begins loaded).refusesGroup ((begins loaded).thr 0).tgrp = false) ∧
      (((begins outOfEnergy).thr 0).plate.pdepth = 0 ∧ ((begins outOfEnergy).thr 0).outs = [] ∧ ((begins outOfEnergy).thr 0).stores = [] ∧
        (begins outOfEnergy).refusesGroup ((begins outOfEnergy).thr 0).tgrp = true) ∧
      (((begins storing).thr 0).plate.pdepth = 0 ∧ ((begins storing).thr 0).stores ≠ []) ∧
      (0 < ((begins inPlate).thr 0).plate.pdepth ∧ ((begins inPlate).thr 0).plate.pdepth < 7) ∧ ((begins deepPlate).thr 0).plate.pdepth = 7 :=
  ⟨⟨rfl, rfl, rfl⟩, ⟨rfl, rfl, rfl⟩, ⟨rfl, rfl, rfl⟩, ⟨rfl, rfl, rfl⟩, ⟨rfl, rfl, rfl⟩, by decide⟩
/-- A plate that has written 8 bytes, and its PCOMMIT waiting. -/
def wrote : State := ran (.sd 0 2 4 0) inPlate
def committing : State := ran (.pcommit 0 3) wrote
theorem witness_PlateEnds :
    Issues deepPlate 0 { dests := [3] } (begins deepPlate) ∧ Issues wrote 0 { dests := [3] } (begins wrote) ∧ Issues inPlate 0 { dests := [3] } (begins inPlate) ∧
      Issues loaded 0 { dests := [3] } (begins loaded) ∧ Issues loaded 0 {} (goes loaded {}) ∧ Issues wrote 0 {} (goes wrote {}) ∧
      (1 < ((begins deepPlate).thr 0).plate.pdepth ∧ ((begins wrote).thr 0).plate.pdepth = 1 ∧ ((begins wrote).thr 0).plate.takesCsn = true ∧
        ((begins inPlate).thr 0).plate.pdepth = 1 ∧ ((begins inPlate).thr 0).plate.takesCsn = false ∧ ((begins inPlate).thr 0).outs = [] ∧
        ((begins loaded).thr 0).plate.pdepth = 0) ∧
      ((goes loaded {}).thr 0).plate.pdepth = 0 ∧ 0 < ((goes wrote {}).thr 0).plate.pdepth ∧ ((goes wrote {}).thr 0).plate.phase = .live ∧
        ((goes wrote {}).thr 0).st = .ready :=
  ⟨⟨rfl, rfl, rfl⟩, ⟨rfl, rfl, rfl⟩, ⟨rfl, rfl, rfl⟩, ⟨rfl, rfl, rfl⟩, ⟨rfl, rfl, rfl⟩, ⟨rfl, rfl, rfl⟩, by decide⟩
theorem witness_PlateAborts : (loaded.plate 0).abortable = false ∧ (wrote.plate 0).abortable = true ∧ (committing.plate 0).abortable = true := by decide
/-- A commit request in the sequencer's queue; one that waits for journal space. -/
def requested : State := ran (.commitRequest 0) committing
theorem witness_CommitSequencing :
    committing.mayRequest 0 = true ∧ loaded.mayRequest 0 = false ∧ (requested.sequencerRuns = true ∧ nextRequest requested false requested.etch.queue = some (Committer.thread 0)) ∧
      nextRequest committing false committing.etch.queue ≠ some (Committer.thread 0) := by decide
/-- The journal is open and its 8 MiB ring is full; thread 0's plate writes the Durable area. -/
def ringFull : State :=
  let s := ((loaded.rset .durBase 0).rset .durSize 0x100000).rset .jpos 0x800000
  let s := ran (.commitRequest 0) (ran (.pcommit 0 3) (ran (.sd 0 2 4 0) (ran (.pbegin 0 9 50) s)))
  s.setEtchBit 0 true
/-- A deferred plate with a vector due. -/
def deferred : State :=
  ran (.vectorRaise 0 5) ((onRunner (fun th => { th with evecV := Cap.root 0x8000 }) (ran (.pbeginDefer 0 9 50) loaded)).rset (.vcfg 0 5) 0x851)
theorem witness_CommitSequencing_limits :
    (ringFull.waitsForSpace 0 = true ∧ ringFull.pfail = false ∧ (ringFull.plate 0).abortable = true) ∧
      (deferred.plate 0).abortable = true ∧ (deferred.plate 0).defer = true ∧ deferred.dueVectors 0 ≠ [] := by decide

/-- A thread with a vector base and a stack: g31, or at user level the supervisor stack; a user thread whose supervisor stack is null spills. -/
def stackedAt (level : Level) : State :=
  onRunner (fun th => { th with evecV := Cap.root 0x8000, stkV := Cap.root 0x9000, level := level, regs := [(31, Cap.root 0x4000), (3, Cap.root 0x77)] }) loaded
def entryWord (e : PEntry) (spill : Bool) : Word := if spill then e.cause ||| (1 : Word) <<< 17 else e.cause
def entryFrame (s : State) (e : PEntry) (spill : Bool) : List Cap :=
  let th := s.thr 0
  [statusGranule th.world th.level th.ipl, th.pcc, Cap.ofQuad ((((e.fa.setWidth 54).setWidth 128) <<< 64) ||| (entryWord e spill).setWidth 128),
   Cap.ofQuad th.pkeys, th.reg 31, th.reg 1, th.reg 2, th.reg 3]
def fault5 : PEntry := { cause := 0x105, fa := 0x1234, prio := none }
def pushSegs (p : Push) : List Seg :=
  match p with
  | .at l _ _ => l
  | _ => []
def pushCap (p : Push) : Cap :=
  match p with
  | .at _ c _ => c
  | _ => Cap.null
theorem witness_ExceptionEntry_raise : ((loaded.plate 0).abortable = false ∧ (loaded.thr 0).outs = []) ∧ (dividing.plate 0).abortable = false ∧
    (dividing.thr 0).outs ≠ [] := by decide
theorem witness_ExceptionEntry_frame :
    let s := stackedAt .supervisor
    let p := choosePush s 0 (entryFrame s fault5)
    (s.thr 0).parity = [] ∧ (p.1.thr 0).parity = [] ∧ p = (p.1, .at (pushSegs p.2) (pushCap p.2) false) ∧ p.1.noStop 0 ∧ (p.1.thr 0).stores = [] ∧
      jumpCheck ((p.1.thr 0).evec (p.1.thr 0).world) 0 = none ∧ 0x3F80 % 16 = 0 ∧ (pushSegs p.2).map (·.pa) = (List.range 8).map (fun i => 0x3F80 + 16 * i) ∧
      (∀ y ∈ pushSegs p.2, p.1.isDram y.pa = true) := ⟨by decide, by decide, rfl, ⟨rfl, rfl⟩, by decide, by decide, by decide, by decide, by decide⟩
theorem witness_ExceptionEntry_lost : (loaded.thr 0).parity = [] ∧ choosePush loaded 0 (entryFrame loaded fault5) = (loaded, .none) := ⟨rfl, rfl⟩

/-- Vectors 5 and 9 enabled for thread 0 in the Vault world, of priorities 5 and 7; both raised. -/
def vectors : State := ((stackedAt .supervisor).rset (.vcfg 0 5) 0x851).rset (.vcfg 0 9) 0x871
def twoDue : State := ran (.vectorRaise 0 9) (ran (.vectorRaise 0 5) vectors)
/-- A thread that waits in PWAIT with a divide outstanding; one whose plate holds entry up. -/
def heldUp : State := (onRunner (fun th => { th with st := .waiting (.pwait 3 11 12 5), outs := (dividing.thr 0).outs }) twoDue)
def deferring : State := onRunner (fun th => { th with plate := { (inPlate.thr 0).plate with defer := true } }) twoDue
theorem witness_InterruptCommands_entry :
    (twoDue.dueVector 0 = some 9 ∧ twoDue.mayEnter 0 = true ∧ twoDue.mustAbandon 0 = false ∧ (twoDue.plate 0).abortable = false) ∧
      (heldUp.dueVector 0 = some 9 ∧ heldUp.mustAbandon 0 = true) ∧
      (deferring.dueVector 0 = some 9 ∧ deferring.mayEnter 0 = false ∧ deferring.mustAbandon 0 = false) ∧ vectors.dueVector 0 = none ∧ vectors.powered = true := by decide +kernel
theorem witness_InterruptCommands_registers :
    vectors.reachesReg (.tile 0) (.swset 0) ∧ vectors.reachesReg (.tile 0) (.pend 0 3) ∧ vectors.reachesReg (.tile 0) (.vcfg 63 255) ∧ vectors.reachesReg .host (.vcfg 0 5) ∧
      vectors.reachesVector (.tile 0) 0 ((0x305 : Word).toNat % 256) = true ∧ vectors.reachesVector (.tile 0) 63 255 = true ∧ vectors.reachesVector .host 0 5 = false :=
  ⟨⟨rfl, rfl, rfl, rfl, rfl, rfl, rfl, rfl⟩, ⟨rfl, rfl, rfl, rfl, rfl, rfl, rfl, rfl⟩, ⟨rfl, rfl, rfl, rfl, rfl, rfl, rfl, rfl⟩, ⟨rfl, rfl, rfl, rfl, rfl, rfl, rfl, rfl⟩, by decide⟩
/-- The thread waits for line 64; its plate has read 16 lines that the L2 slice holds. -/
def fetching : State :=
  { (onRunner (fun th => { th with st := .parked (.fetch 64), plate := { th.plate with reads := List.range' 100 16 } }) inPlate) with l2 := [(0, List.range' 100 16)] }
theorem witness_InterruptCommands_fetch :
    ((onRunner (fun th => { th with st := .parked (.fetch 64) }) loaded).thr 0).st = .parked (.fetch 64) ∧
      (touchLines (onRunner (fun th => { th with st := .parked (.fetch 64) }) loaded) 0 [64]).2 = false ∧ ∀ l, (loaded.thr 0).st ≠ .parked (.fetch l) :=
  ⟨by decide, by decide +kernel, fun l h => by rw [show (loaded.thr 0).st = .ready from rfl] at h; cases h⟩
/-- Where those lines all fall into the set of line 64, the fill evicts one. -/
theorem witness_InterruptCommands_evicts (h : ∀ l, Config.l2Set l = Config.l2Set 64) :
    (fetching.thr 0).st = .parked (.fetch 64) ∧ (touchLines fetching 0 [64]).2 = true := by
  refine ⟨by decide +kernel, ?_⟩
  simp only [touchLines, State.touchLine, h, decide_true]
  decide +kernel

/-- Port 5 holds two messages, port 7 none, port 9 is closed with notice RESET; 11 is FREE. Register 4 is a message of 64 bytes. -/
def message (off len : Nat) : RxDesc := { len := len, off := off, num := 1, lead := 0, span := len, hs := false, freed := 0 }
def connection : Port :=
  { Port.reset with state := .open, world := .vault, rxbuf := (Cap.root 0x10000).narrowTo 0x10000 0x10000, lport := 80, rport := 4000, laddr := 0x0A000001,
                    raddr := 0x0A000002, gen := 3,
                    tcb := { Tcb.reset with rcvNxt := 1000, rcvWnd := 4096, sndUna := 500, sndNxt := 500, sndWnd := 65535, mss := 1460, cwnd := 14600, ssthresh := 65535, rto := 1000 } }
def withMessages : Port := { connection with rxq := [message 0 16, message 16 40], wOff := 64 }
def ported (c : Cap) : State :=
  ({ withRegs [(1, c), (2, int 100), (4, (Cap.root 0x2000).narrowTo 0x2000 64), (6, int 0)] unit0 with
       ports := [(5, withMessages), (7, connection), (9, { connection with state := .closed, notice := .reset })] }).rset .peCtrl 3
/-- The same inside a LIVE plate; and with port 5 changed. -/
def portedIn (c : Cap) : State := ran (.pbegin 0 9 50) (ported c)
def portedWith (c : Cap) (f : Port → Port) : State := (ported c).modPort c.cursor f
def onePort (n : Nat) : Cap := (Cap.root n).narrowTo n 1
def receives (s : State) : State := goes s { srcs := [1], dests := [3] }
def sends (s : State) : State := goes s { srcs := [1, 4], dests := [3] }
/-- The cursor line of port 5 is held by the plate of thread 9; port 5 has moved, or is in HANDSHAKE beside a thread of the Main world. -/
def heldPort (s : State) : State :=
  s.setThr 9 { Thread.reset with plate := { Thread.reset.plate with phase := .held, writes := [(4 * cursorLine 5, { data := 0, tag := false, colour := 15 })] } }
def movedPort (s : State) : State := s.modPort 5 (fun p => { p with moved := some (9, 0) })
def shaking : State := onRunner (fun th => { th with world := .main }) (portedWith (Cap.root 5) (fun p => { p with world := .main, state := .handshake }))
theorem witness_PortReceiving_issue :
    ∀ s ∈ [ported (Cap.root 11), ported (Cap.root 5), ported (Cap.root 7), ported (int 5), ported (Cap.root 4096), heldPort (ported (Cap.root 5)),
        movedPort (ported (Cap.root 5)), shaking, portedIn (Cap.root 5), portedIn (Cap.root 7), heldPort (portedIn (Cap.root 5)), movedPort (portedIn (Cap.root 5))],
      Issues s 0 { srcs := [1], dests := [3] } (receives s) := fun s h => issues_of s _ (by revert s; decide +kernel)
theorem witness_PortReceiving_clauses :
    (∀ n ∈ [5, 7, 11, 4095], let c := Cap.root n
      c.tag = true ∧ c.seal = 0 ∧ c.has .port = true ∧ c.base ≤ c.cursor ∧ c.cursor < c.top ∧ c.cursor < 4096) ∧
      (∀ c ∈ [int 5, Cap.root 4096], portCheck c 1 ≠ none) ∧ ((receives (ported (Cap.root 11))).port 11).state = .free ∧
      (∀ n ∈ [5, 7], let s := receives (ported (Cap.root n))
        let p := s.port n
        p.state ≠ .free ∧ p.world = (s.thr 0).world ∧ p.moved = none ∧ p.state ≠ .handshake ∧ (s.thr 0).plate.pdepth = 0 ∧ s.heldByOther (some 0) (cursorLine n) = false) ∧
      ((receives (ported (Cap.root 5))).port 5).rxq = [message 0 16, message 16 40] ∧ ((receives (ported (Cap.root 7))).port 7).rxq = [] ∧
      (∀ s ∈ [receives (heldPort (ported (Cap.root 5))), receives (heldPort (portedIn (Cap.root 5)))], (s.port 5).state = .open ∧ (s.port 5).moved = none ∧
        s.heldByOther (some 0) (cursorLine 5) = true) ∧
      (∀ s ∈ [receives (movedPort (ported (Cap.root 5))), receives (movedPort (portedIn (Cap.root 5)))], (s.port 5).state = .open ∧ (s.port 5).moved ≠ none) ∧
      (((receives shaking).port 5).state = .handshake ∧ ((receives shaking).port 5).world = .main ∧ ((receives shaking).thr 0).world = .main) := by decide +kernel
theorem witness_PortReceiving_plate :
    ∀ n ∈ [5, 7], let s := receives (portedIn (Cap.root n))
       (s.thr 0).plate.pdepth ≠ 0 ∧ s.heldByOther (some 0) (cursorLine n) = false ∧ addReads (s.thr 0).plate.reads [cursorLine n] = some [cursorLine n] ∧
         (s.usesPort 0 n true).bufferUsed (tileOf 0) < 256 ∧ (s.port n).state = .open ∧ (s.port n).world = (s.thr 0).world ∧
         (s.port n).rxq[(s.thr 0).plate.takenOf n]? = (if n = 5 then some (message 0 16) else none) := by decide +kernel
/-- Waits at ports without a message, and with one that came. -/
def pwaits (s : State) (r : Reg) : State := goes s { srcs := [1, r], dests := [3] }
def waiting : State := ran (.pwait 0 3 1 2) (ported (onePort 11))
theorem witness_PortReceiving_wait :
    (∀ s ∈ [ported (Cap.root 5), ported (onePort 11), ported (int 5), portedIn (Cap.root 5)], Issues s 0 { srcs := [1, 2], dests := [3] } (pwaits s 2)) ∧
      Issues (ported (onePort 11)) 0 { srcs := [1, 6], dests := [3] } (pwaits (ported (onePort 11)) 6) ∧
      (((pwaits (portedIn (Cap.root 5)) 2).thr 0).plate.pdepth ≠ 0 ∧ ((pwaits (ported (int 5)) 2).thr 0).plate.pdepth = 0 ∧ portCheck (int 5) 1 ≠ none) ∧
      (findPort (endClaims (pwaits (ported (Cap.root 5)) 2) 0) 0 (Cap.root 5).base (min (Cap.root 5).top 4096)).isSome = true ∧
      findPort (endClaims (pwaits (ported (onePort 11)) 6) 0) 0 11 12 = none ∧ findPort (endClaims (pwaits (ported (onePort 11)) 2) 0) 0 11 12 = none ∧
      (((ported (onePort 11)).thr 0).reg 6).low = 0 ∧ (((ported (onePort 11)).thr 0).reg 2).low ≠ 0 :=
  ⟨fun s h => issues_of s _ (by revert s; decide +kernel), issues_of _ _ (by decide +kernel), by decide +kernel⟩
theorem witness_PortReceiving_timeout :
    (waiting.thr 0).st = .waiting (.pwait 3 11 12 (pwaits (ported (onePort 11)) 2).fresh) ∧ (waiting.thr 0).stepping = false ∧ (waiting.thr 0).stopReq = false ∧
      findPort waiting 0 11 12 = none ∧ findPort (waiting.modPort 11 (fun _ => withMessages)) 0 11 12 = some 11 ∧ (waiting.port 11).ready = false := by decide +kernel
/-- An entry that waits in a transmit queue. -/
def queued : TxEntry :=
  { cap := Cap.root 0x2000, len := 5, stamp := 99, plate := none, need := 0, ofPlate := false, late := false, released := false, sent := false, dead := false, taken := false, startSeq := 0, wire := [] }
theorem witness_PortSending_issue :
    ∀ s ∈ [ported (Cap.root 5), ported (Cap.root 9), ported (Cap.root 11), portedIn (Cap.root 5), portedIn (Cap.root 11), ported (int 5),
        withRegs [(1, Cap.root 5), (4, int 4)] (ported (Cap.root 5)), movedPort (ported (Cap.root 5)), movedPort (portedIn (Cap.root 5)), shaking,
        heldPort (ported (Cap.root 5)), heldPort (ported (Cap.root 9)), portedWith (Cap.root 5) (fun p => { p with txq := [queued, queued, queued, queued] }),
        portedWith (Cap.root 5) (fun p => { p with closeReq := true }), portedWith (Cap.root 5) (fun p => { p with state := .closing, closeReq := true }),
        portedWith (Cap.root 9) (fun p => { p with timeWait := true }), portedWith (Cap.root 9) (fun p => { p with fwdWindow := true }),
        portedWith (Cap.root 5) (fun p => { p with stream := [1, 2, 3] }), portedWith (Cap.root 5) (fun p => { p with tls := true }),
        portedWith (Cap.root 5) (fun p => { p with tls := true, state := .handshake })],
      Issues s 0 { srcs := [1, 4], dests := [3] } (sends s) := fun s h => issues_of s _ (by revert s; decide +kernel)
theorem witness_PortSending_send :
    let m := (Cap.root 0x2000).narrowTo 0x2000 64
    let closing := sends (portedWith (Cap.root 5) (fun p => { p with state := .closing, closeReq := true }))
    let full := sends (portedWith (Cap.root 5) (fun p => { p with txq := [queued, queued, queued, queued] }))
    (messageCheck m 4 = none ∧ messageCheck (int 4) 4 ≠ none ∧ portCheck (int 5) 1 ≠ none) ∧
      (∀ s ∈ [sends (ported (Cap.root 5)), sends (portedIn (Cap.root 5)), sends (portedWith (Cap.root 5) (fun p => { p with closeReq := true }))],
        let p := s.port 5
        (s.thr 0).reg 4 = m ∧ p.state = .open ∧ p.world = (s.thr 0).world ∧ p.moved = none ∧ m.top - m.cursor ≤ p.sendLimit ∧ p.txq.length < 4) ∧
      ((sends (ported (Cap.root 5))).thr 0).plate.pdepth = 0 ∧ ((sends (portedIn (Cap.root 5))).thr 0).plate.pdepth ≠ 0 ∧
      ((sends (movedPort (ported (Cap.root 5)))).port 5).moved ≠ none ∧ ((sends shaking).port 5).state = .handshake ∧
      ((closing.port 5).state = .closing ∧ (closing.port 5).closeReq = true) ∧ ((sends (ported (Cap.root 9))).port 9).state = .closed ∧
      (full.port 5).sendLimit < (Cap.root 0x2000).top - (Cap.root 0x2000).cursor ∧ 4 ≤ (full.port 5).txq.length ∧
      ((sends (ported (Cap.root 11))).port 11).state = .free := by decide +kernel
theorem witness_PortSending_controls :
    let s := sends (ported (Cap.root 5))
    let closed := sends (ported (Cap.root 9))
    let late := sends (portedWith (Cap.root 9) (fun p => { p with timeWait := true }))
    let forwarding := sends (portedWith (Cap.root 9) (fun p => { p with fwdWindow := true }))
    let halfway := sends (portedWith (Cap.root 5) (fun p => { p with stream := [1, 2, 3] }))
    (s.heldByOther (some 0) (cursorLine 5) = false ∧ (s.port 5).moved = none ∧ (s.port 5).closeReq = false ∧ (s.port 5).gone = false ∧
      (s.port 5).atBoundary = true ∧ (halfway.port 5).atBoundary = false ∧ (s.port 5).tls = false) ∧
      ((closed.port 9).state = .closed ∧ (closed.port 9).world = (closed.thr 0).world ∧ closed.heldByOther (some 0) (cursorLine 9) = false ∧
        (closed.port 9).timeWait = false ∧ (closed.port 9).fwdWindow = false) ∧ (late.port 9).timeWait = true ∧
      ((forwarding.port 9).timeWait = false ∧ (forwarding.port 9).fwdWindow = true) ∧
      (sends (heldPort (ported (Cap.root 5)))).heldByOther (some 0) (cursorLine 5) = true := by decide +kernel
theorem witness_PortSending_keys :
    ∀ st ∈ [PState.open, .handshake], let s := sends (portedWith (Cap.root 5) (fun p => { p with tls := true, state := st }))
      (s.port 5).tls = true ∧ (s.port 5).state = st ∧ (s.port 5).moved = none ∧ (s.thr 0).world = .vault ∧ (s.thr 0).plate.pdepth = 0 := by decide +kernel
/-- Listener 0 takes a pool at 0x20000; it may be listening already, or one of its ports be in use. -/
def pools : Pre := { supervisor := true, srcs := [1, 6], dests := [3] }
theorem witness_PortSending_pool :
    let s := ported (Cap.root 0x20000)
    let l := s.rset (.lcfg 0) 0x10000
    let inUse := s.modPort 0 (fun p => { p with state := .open })
    let size (w : State) := ((goes w pools).rfield (.lrange 0) 16 12 + 1) * (goes w pools).slotBytes 0
    (∀ w ∈ [s, l, inUse, ported (int 5), portedIn (Cap.root 5)], Issues w 0 pools (goes w pools)) ∧ (((goes s pools).thr 0).reg 6).low.toNat % 64 = 0 ∧
      ((goes s pools).thr 0).plate.pdepth = 0 ∧ ((goes (portedIn (Cap.root 5)) pools).thr 0).plate.pdepth ≠ 0 ∧ poolCheck (int 5) 1 (size s) ≠ none ∧
      poolCheck (Cap.root 0x20000) 1 (size s) = none ∧ (goes s pools).listens 0 = false ∧ (goes l pools).listens 0 = true ∧
      (∃ k ∈ (goes inUse pools).listenPorts 0, ((goes inUse pools).port k).state ≠ .free) ∧
      (∀ k ∈ (goes s pools).listenPorts 0, ((goes s pools).port k).state = .free) :=
  ⟨fun s h => issues_of s _ (by revert s; decide +kernel), by decide +kernel⟩
/-! ### Witnesses: network and drive -/

/-- MAC 0 is up and the port engine runs; port 5 is p. -/
def net (p : Port) : State := (({ unit0 with ports := [(5, p)] }).rset .peCtrl (unit0.rget .peCtrl ||| 3)).rset (.macCtrl 0) 5
def reset0 : Segment := { segment0 with rst := true, data := [] }
def stray : Segment := { segment0 with sport := 77 }
theorem witness_NetworkCommands_frames :
    let s := net connection
    let counted := s.rcount (.macCnt 0 0)
    (s.clocked = true ∧ (s.rget (.macCtrl 0)).getLsbD 2 = true ∧ (counted.rget .peCtrl).getLsbD 0 = true) ∧
      counted.dropsFrame 0 { frame0 segment0 with secondTag := true } = true ∧
      (∀ g ∈ [segment0, reset0, stray], counted.dropsFrame 0 (frame0 g) = false ∧ (frame0 g).fcsOk = true ∧ (packet0 g).fragment = false ∧
        (packet0 g).headerOk = true ∧ (packet0 g).routing = false ∧ g.checksumOk = true) ∧
      counted.portOf (packet0 stray) stray = none ∧ stray.rst = false ∧ stray.syn = false ∧
      counted.portOf (packet0 reset0) reset0 = some 5 ∧ counted.portOf (packet0 segment0) segment0 = some 5 := by decide +kernel
theorem witness_NetworkCommands_segments :
    let p := (net connection).port 5
    (p.state = .open ∧ p.moved = none ∧ p.tcb.tsOn = false ∧ p.notice = .none) ∧
      (reset0.rst = true ∧ reset0.syn = false ∧ reset0.fin = false ∧ reset0.data = [] ∧ reset0.seqNo = p.tcb.rcvNxt ∧ 0 < p.tcb.rcvWnd) ∧
      (p.tls = false ∧ p.finSeen = false ∧ p.finRcvd = false ∧ p.tcb.held = [] ∧ p.txq = [] ∧ p.closeReq = false) ∧
      (segment0.rst = false ∧ segment0.syn = false ∧ segment0.fin = false ∧ segment0.ack = true ∧ segment0.seqNo = p.tcb.rcvNxt ∧ segment0.ackNo = p.tcb.sndNxt ∧
        p.tcb.sndUna = p.tcb.sndNxt ∧ 0 < segment0.data.length ∧ segment0.data.length ≤ p.tcb.rcvWnd) := by decide +kernel
theorem witness_NetworkCommands_forwarded :
    (net connection).clocked = true ∧ ((net connection).port 5).gen ≠ 4 ∧ ((net connection).port 5).gen = 3 ∧
      (net connection).portOf (packet0 reset0) reset0 = some 5 := by decide +kernel
/-- A stream that begins with a message of two bytes under framing 1; the receive buffer lies in the calibration store's staging page. -/
def streaming : Port :=
  { connection with conf := 0x40000001, stream := [0, 2, 9, 9, 7], rxbuf := (Cap.root (RName.calStaging 0).addr).narrowTo (RName.calStaging 0).addr 0x2000 }
theorem witness_NetworkCommands_delimit :
    let s := net streaming
    let p := s.port 5
    let q := (s.modPort 5 Port.dropSkipped).dmaCheck p p.rxbuf (p.rxbuf.base + 0) 2 true
    (s.clocked = true ∧ (s.rget .peCtrl).getLsbD 0 = true ∧ p.state = .open ∧ p.moved = none ∧ p.notice = .none ∧ p.skip = 0 ∧ p.skipDelim = false ∧
      p.rxq.length < 16 ∧ cutStream p.conf p.ring p.stream = .message 2 2 2 0 ∧ ((p.stream.drop 2).take 2).length = 2 ∧ p.place 2 = some 0) ∧
      q.2 = .ok [((RName.calStaging 0).addr, 2)] ∧ q.1.ports = (s.modPort 5 Port.dropSkipped).ports := by decide +kernel
theorem witness_NetworkCommands_timers :
    let unacked := (net { connection with tcb := { connection.tcb with sndNxt := 700 } })
    let late := net { connection with state := .closed, timeWait := true, releaseReq := true, tcb := { connection.tcb with ackDue := 1 } }
    let forwarding := net { connection with state := .closed, fwdWindow := true, releaseReq := true }
    ((net { connection with state := .free }).port 5).state = .free ∧
      ((unacked.port 5).tcb.sndUna ≠ (unacked.port 5).tcb.sndNxt ∧ (unacked.port 5).tcb.rtxCount < unacked.rtxMax ∧ (unacked.port 5).txq = [] ∧
        (unacked.port 5).finSent = false) ∧
      ((net connection).port 5).tcb.ackDue = 0 ∧ (late.port 5).tcb.ackDue ≠ 0 ∧ (late.port 5).timeWait = true ∧ (late.port 5).releaseReq = true ∧
      (late.port 5).fwdWindow = false ∧ (forwarding.port 5).fwdWindow = true ∧ (forwarding.port 5).timeWait = false := by decide +kernel
theorem witness_NetworkCommands_registers :
    (net connection).reachesReg (.tile 0) (.rawTail false 7) ∧ (net connection).reachesReg (.tile 0) (.rawTail true 0) ∧
      (net connection).reachesReg (.tile 0) .kcmd ∧ (((net connection).rset .ksuite 1).rget .ksuite).getLsbD 0 = true :=
  ⟨⟨rfl, rfl, rfl, rfl, rfl, rfl, rfl, rfl⟩, ⟨rfl, rfl, rfl, rfl, rfl, rfl, rfl, rfl⟩, ⟨rfl, rfl, rfl, rfl, rfl, rfl, rfl, rfl⟩, by decide +kernel⟩

/-- A unit with two usable drives, an area of 1 MiB and a ring of 0x2000 blocks; then formatting, formatted, opening, open. Gate g shut to all. -/
def driven : State :=
  ((((unit0.rset (.rpStat 0) 0x401).rset (.rpStat 1) 0x401).rset .durBase 0x100000).rset .durSize 0x100000).rset .fmtid 77 |>.rset .jringBlocks 0x2000
def withEtch (f : Etcher → Etcher) (s : State) : State := { s with etch := f s.etch }
def shut (g : Nat) (s : State) : State := (s.rset (.gAttr g 0) 0x7F0010).rset (.gEnd g 0) 0x40000000000
def formatting : State := withEtch (fun e => { e with formatting := true }) (driven.rset .etchStat 0x80)
def header0 : AreaHeader :=
  { fmtid := 77, unit := 0, durBase := 0x100000, durSize := 0x100000, spillLba := 256, jringLba := 4096, jringBlocks := 0x2000, imgLba := 0x1001000 }
def marker0 : Marker := { proof := 0, scsn := 0, jpos := 0, fmtid := 77, unit := 0, durSize := 0x100000 }
def headed : Drive := (Drive.blank.putHeader 0 header0).putHeader 1 header0
def formatted : State := { driven with drive0 := headed.putMarker marker0 }
def replay0 : Replay :=
  { header := header0, proof := 0, scsn := 0, markerPos := 0, pos := 0, expect := 1, applied := false, asking := [], firstAsked := none }
def openingWith (f : Etcher → Etcher) : State := withEtch f (driven.rset .etchStat 0x80)
def opening : State := openingWith (fun e => { e with replay := some replay0 })
def openedWith (f : Etcher → Etcher) : State := withEtch (fun e => f { e with locked := true }) (driven.rset .etchStat 0x144)
def opened : State := openedWith id
theorem headed_header : headed.headerAt 0 = some header0 := by
  rw [headed, headerAt_putHeader_apart _ _ _ _ (by decide)]
  exact headerAt_putHeader _ _ _ (by decide) (by decide) (by decide) (by decide) (by decide) (by decide)
theorem headed_header_read : headed.header = some header0 := header_of_first _ _ headed_header
theorem formatted_header : formatted.drive0.header = some header0 := header_of_first _ _ ((headerAt_putMarker _ _ _ (by decide)).trans headed_header)
theorem headed_marker (k : Nat) : headed.markerAt k = Drive.blank.markerAt k := by
  rw [headed, markerAt_putHeader _ _ _ _ (by decide), markerAt_putHeader _ _ _ _ (by decide)]
theorem blank_markers : ∀ k, k < 16 → Drive.blank.markerAt k = none := by decide +kernel
theorem headed_unmarked : headed.bestMarker header0 = none := bestMarker_none _ _ (fun k hk => (headed_marker k).trans (blank_markers k hk))
theorem formatted_marker : formatted.drive0.bestMarker header0 = some marker0 :=
  bestMarker_alone (headed.putMarker marker0) header0 marker0 (markerAt_putMarker headed marker0 (by decide) (by decide) (by decide) (by decide))
    (fun j h hj => ((markerAt_putMarker_apart headed marker0 j h).trans (headed_marker j)).trans (blank_markers j hj)) rfl
/-- FORMAT and FORMAT_COMPLETE lead to those states. -/
theorem test_format_starts : (ran (.format (.tile 0)) driven).etch = formatting.etch := by decide +kernel
theorem test_format_writes_the_area :
    (ran .formatComplete formatting).drive0 = (driven.drive0.blankImage formatting.ownImg formatting.ownSize).ground formatting.areaHeader (formatting.markerFor 0 0 0) := rfl
theorem witness_DriveCommands_format :
    driven.reachesReg (.tile 0) .etchCmd ∧ (driven.etchBit 7 = false ∧ driven.etch.locked = false ∧ driven.driveUp 0 = true) ∧
      (formatting.clocked = true ∧ formatting.etch.formatting = true ∧ 32 ≤ formatting.ownImg ∧ driven.etch.formatting = false) :=
  ⟨⟨by decide +kernel, by decide +kernel, by decide +kernel, by decide +kernel, by decide +kernel, by decide +kernel, by decide +kernel, by decide +kernel⟩, by decide +kernel⟩
theorem witness_DriveCommands_open :
    let s₀ := State.setEtchBit { formatted with etch := { formatted.etch with openFail := none, replay := none } } 7 true
    let h := header0
    formatted.reachesReg (.tile 0) .etchCmd ∧ (formatted.etchBit 7 = false ∧ formatted.etch.locked = false ∧ formatted.driveUp 0 = true) ∧
      (formatted.drive0.header = some h ∧ h.fmtid = formatted.rget .fmtid ∧ h.durSize = (formatted.rget .durSize).toNat ∧ formatted.drive0.bestMarker h = some marker0) ∧
      firstDenied s₀ (s₀.decisionPoints s₀.ownInto.lo (s₀.ownInto.lo + s₀.ownInto.size)) = (s₀, false) :=
  ⟨⟨rfl, by decide, rfl, rfl, rfl, rfl, rfl, rfl⟩, by decide +kernel, ⟨formatted_header, rfl, rfl, formatted_marker⟩, rfl⟩
theorem witness_DriveCommands_open_fails :
    let other := formatted.rset .fmtid 78
    let plain : State := { driven with drive0 := headed }
    let s₀ := State.setEtchBit (withEtch (fun e => { e with openFail := none, replay := none }) (shut 0 driven)) 7 true
    driven.drive0.header = none ∧ (other.drive0.header = some header0 ∧ header0.fmtid ≠ other.rget .fmtid) ∧
      (plain.drive0.header = some header0 ∧ header0.fmtid = plain.rget .fmtid ∧ header0.durSize = (plain.rget .durSize).toNat ∧ plain.drive0.bestMarker header0 = none) ∧
      (firstDenied s₀ (s₀.decisionPoints s₀.ownInto.lo (s₀.ownInto.lo + s₀.ownInto.size))).2 = true ∧
      other.reachesReg (.tile 0) .etchCmd ∧ plain.reachesReg (.tile 0) .etchCmd ∧ (shut 0 driven).reachesReg (.tile 0) .etchCmd :=
  ⟨by decide +kernel, ⟨formatted_header, by decide +kernel⟩, ⟨headed_header_read, rfl, rfl, headed_unmarked⟩, by decide +kernel,
    ⟨rfl, by decide, rfl, rfl, rfl, rfl, rfl, rfl⟩, ⟨rfl, by decide, rfl, rfl, rfl, rfl, rfl, rfl⟩, ⟨rfl, by decide, rfl, rfl, rfl, rfl, rfl, rfl⟩⟩
/-- Recovery that asks units 9 and 4 for their tails. -/
def asking : State := openingWith (fun e => { e with replay := some { replay0 with asking := [9, 4] } })
theorem witness_DriveCommands_recovery :
    (opening.clocked = true ∧ opening.etchBit 7 = true ∧ opening.etch.formatting = false ∧ opening.etch.openFail = none ∧ opening.etch.replay = some replay0 ∧
      replay0.asking = []) ∧ (openingWith (fun e => { e with openFail := some 4 })).etch.openFail = some 4 ∧
      (openingWith (fun e => { e with openFail := some 4 })).etchBit 7 = true := by decide +kernel
theorem witness_DriveCommands_tails :
    let near := driven.rset .sdAddr 0x8003
    let points (s : State) := s.decisionPoints s.ownInto.lo (s.ownInto.lo + s.ownInto.size)
    (driven.clocked = true ∧ driven.halted = false ∧ (driven.rget .sdAddr).getLsbD 15 = false) ∧
      (near.clocked = true ∧ near.halted = false ∧ (near.rget .sdAddr).getLsbD 15 = true ∧ (near.rget (.rpStat 0)).getLsbD 0 = true ∧ near.etch.tailAsked = []) ∧
      (asking.clocked = true ∧ asking.halted = false ∧ asking.etch.replay = some { replay0 with asking := [9, 4] }) ∧
      (firstDenied asking (points asking)).2 = false ∧ (firstDenied (shut 0 asking) (points (shut 0 asking))).2 = true := by decide +kernel
theorem witness_DriveCommands_control :
    opened.reachesReg (.tile 0) .etchCtrl ∧ (opened.etchMode = bitsOf 0 8 2 ∧ bitsOf (0 : Word) 8 2 ≤ 1 ∧ bitsOf (0x100 : Word) 8 2 = 1 ∧ opened.etchMode = 0) ∧
      (opened.rset .etchCtrl 0x100).etchMode = 1 ∧ (opened.rset .etchCtrl 0x100).reachesReg (.tile 0) .etchCtrl :=
  ⟨⟨rfl, by decide, rfl, rfl, rfl, rfl, rfl, rfl⟩, by decide +kernel, by decide +kernel, ⟨rfl, by decide, rfl, rfl, rfl, rfl, rfl, rfl⟩⟩
/-- Bytes that wait for a Write; a proof in progress, a marker written; a failed command; a line under repair. -/
def behind : State := opened.rset .jpos 4096
def commanding (l : List NvmeCmd) : State :=
  openedWith (fun e => { e with nvme := l, proof := some { num := 1, scsn := 0, jpos := 0 } })
def repairing : State := { (openedWith (fun e => { e with repair := [0x4000], nvme := [.repairRead 0x4000] })) with ue := [(0x4000, true)] }
theorem witness_DriveCommands_writes :
    let safe := behind.setEmode 1
    (behind.clocked = true ∧ behind.halted = false ∧ behind.journalOpen = true ∧ behind.etch.drainStopped = false ∧ behind.ue = [] ∧
      behind.etch.writeIssued < 4096 ∧ 4096 = behind.jposition) ∧
      (safe.emode ≠ 0 ∧ 4096 = min safe.jposition (safe.etch.writeIssued + 65536) ∧ safe.ue = [] ∧ safe.journalOpen = true) ∧
      tailDenied behind (segments (behind.etch.writeIssued % ringSize) (4096 - behind.etch.writeIssued)) = (behind, false) ∧
      tailDenied safe (segments (safe.etch.writeIssued % ringSize) (4096 - safe.etch.writeIssued)) = (safe, false) ∧
      opened.jposition ≤ opened.etch.writeIssued ∧ (opened.setEmode 0).emode = 0 := ⟨by decide +kernel, by decide +kernel, by decide +kernel, by decide +kernel, by decide +kernel, by decide +kernel⟩
theorem witness_DriveCommands_commands :
    ((commanding [.flush]).clocked = true ∧ (commanding [.flush]).etch.nvme = [.flush] ∧ NvmeCmd.flush ≠ .zeroHeader ∧ (∀ k, NvmeCmd.flush ≠ .repairRead k)) ∧
      (commanding [.marker 17 5 64]).etch.nvme = [.marker 17 5 64] ∧ repairing.etch.nvme = [.repairRead 0x4000] ∧ repairing.clocked = true ∧
      (formatting.etch.nvme = [] ∧ formatting.etch.formatting = true) ∧ (opening.etch.nvme = [] ∧ opening.etch.formatting = false ∧ opening.etchBit 7 = true) ∧
      (5 : BitVec 16) ≠ 0 := ⟨⟨by decide +kernel, by decide +kernel, by decide, fun _ => by simp⟩, by decide +kernel⟩
theorem witness_DriveCommands_proof :
    (opened.pfail = false ∧ opened.etch.proof = none ∧ opened.clocked = true ∧ opened.halted = false ∧ opened.journalOpen = true ∧ opened.etch.drainStopped = false) ∧
      ((commanding []).etch.proof.isSome = true ∧ (commanding []).journalOpen = true) ∧ driven.journalOpen = false ∧ (opened.setEtchBit 9 true).pfail = true :=
  by decide +kernel
theorem witness_DriveCommands_repair :
    let after (s : State) : State := withEtch (fun e => { e with repair := e.repair.filter (fun l => decide (l ≠ 0x4000)),
                                                                   nvme := e.nvme.filter (fun c => decide (c ≠ .repairRead 0x4000)) }) s
    let tail (s : State) := segments (max s.etch.proofPos s.etch.drained % ringSize) (s.jposition - max s.etch.proofPos s.etch.drained)
    let found (w : State) := repairEntries w.journalCells 0x4000 w.durable w.durableEnd (w.jposition - w.etch.proofPos + 1) w.etch.proofPos
    let longer := repairing.rset .jpos 64
    let fenced := shut 8 longer
    let durable := (longer.rset .durableCsn 1).rset .nextCsn 2
    let walled := shut 0 repairing
    (repairing.clocked = true ∧ 0x4000 ∈ repairing.etch.repair ∧ repairing.driveUp 0 = true ∧ (repairing.rset (.rpStat 0) 0).driveUp 0 = false ∧
      0x4000 ∉ opened.etch.repair) ∧
      (tailDenied (after fenced) (tail (after fenced))).2 = true ∧
      ((tailDenied (after durable) (tail (after durable))).2 = false ∧ found (after durable) = none) ∧
      ((tailDenied (after repairing) (tail (after repairing))).2 = false ∧ found (after repairing) = some [] ∧
        (repairDenied (after repairing) (4 * 0x4000) 4).2 = false ∧ (repairDenied (after walled) (4 * 0x4000) 4).2 = true) := by decide +kernel

/-- Units 9 mirror to this one and from it; a record that waits for its acknowledgement. -/
def mirrored : State := ((opened.rset .sdCtrl 3).rset .sdMirror 0x409).rset .sdAddr 0x8003
def record1 : JRec :=
  { csn := 1, tid := none, writes := [], cursors := [], journalled := true, pos := 0, len := 64, mirrored := true, acked := false, media := false }
def unacked : State := withEtch (fun e => { e with recs := [record1] }) mirrored
theorem witness_MirrorAndPowerFail_records :
    let piece := chunk (segments ((ringSize - 1) % ringSize) 3) [1, 2, 3]
    let routed : State := { (mirrored.rset (.sdLink 1) 18) with sudon := { mirrored.sudon with order := [3, 9] } }
    (mirrored.clocked = true ∧ mirrored.halted = false ∧ mirrored.accepts 9 = true ∧ mirrored.pfail = false ∧ ([1, 2, 3] : List Byte).length ≤ ringSize) ∧
      (mirrorWrite mirrored piece).2 = false ∧ (mirrorWrite (shut 8 mirrored) piece).2 = true ∧ (mirrored.rset .sdCtrl 1).accepts 9 = false ∧
      (mirrored.setEtchBit 9 true).pfail = true ∧ routed.accepts 9 = true ∧ routed.nextLink 9 = some .east ∧ routed.linkUp .east = true := by decide +kernel
theorem witness_MirrorAndPowerFail_acks :
    (unacked.halted = false ∧ unacked.mirrorTarget = some 9 ∧ unacked.etch.recs = [record1] ∧ record1.mirrored = true ∧ record1.pos + record1.len ≤ 64 ∧
      unacked.etch.fenced = false ∧ unacked.etch.fenceDue = false ∧ record1.tid = none ∧ record1.writes = [] ∧ record1.cursors = [] ∧
      (∀ x ∈ unacked.ports, x.2.sends = false)) ∧
      opened.mirrorTarget ≠ some 9 ∧
      (let s := withEtch (fun e => { e with drainStopped := true }) (unacked.setEmode 0)
       s.waitsForAck = true ∧ s.etch.drainStopped = true ∧ (∀ r ∈ s.etch.recs, r.media = false ∧ r.journalled = true)) ∧ opened.waitsForAck = false := by decide +kernel
/-- Unit 9 mirrors to this one, with records that end at 40 and 100; this unit has drained 64 bytes since its last report. -/
def target9 : State :=
  withEtch (fun e => { e with mirrorSrc := some 9, mirrorFrom := 10, mirrorTo := 100, mirrorEnds := [40, 100], drained := 64 }) mirrored
def failing : State := openedWith (fun e => { e with pfailFilter := true })
def draining (w : Bool) : State := openedWith (fun e => { e with draining := true, warmPending := w, nvme := [.spill] })
theorem witness_MirrorAndPowerFail_positions :
    (target9.halted = false ∧ target9.etch.mirrorSrc = some 9 ∧ target9.etch.reported ≠ target9.etch.drained ∧ target9.mirrorTarget = some 9) ∧
      opened.etch.reported = opened.etch.drained ∧ opened.etch.mirrorSrc ≠ some 9 := by decide +kernel
def fenced : State := { opened with drive0 := headed }
theorem headed_fence : fenced.fenceOk = true := by
  rw [fenceOk_of_header fenced header0 headed_header]
  decide +kernel
theorem witness_MirrorAndPowerFail_fence :
    opened.emode = 2 ∧ opened.journalOpen = true ∧ opened.etch.fenced = false ∧ opened.fenceOk = false ∧ fenced.fenceOk = true :=
  ⟨by decide +kernel, by decide +kernel, by decide +kernel, by decide +kernel, headed_fence⟩
theorem witness_MirrorAndPowerFail_power :
    opened.pfail = false ∧ (opened.setEtchBit 9 true).pfail = true ∧ failing.etch.pfailFilter = true ∧ opened.etch.pfailFilter = false ∧
      ((draining false).etch.draining = true ∧ (draining false).etch.warmPending = false ∧ (draining true).etch.warmPending = true ∧
        ∀ c ∈ (draining false).etch.nvme, c = .spill ∨ c.survives = true) := by decide +kernel
/-! ### Witnesses: chain, takeover and handover -/

/-- The west and east links are up with four lanes; the unit has no address, or address 3. -/
def linkOn (l : Link) (s : State) : State := s.rsetField (.sdLink (linkNo l)) 0 5 18
def chained : State := (linkOn .east (linkOn .west unit0)).rset .sdCtrl 1
def addressed : State := chained.rset .sdAddr 0x8003
def flitBody : List Byte := leBytes 8 (2 ^ 52 + 7 * 2 ^ 40) ++ List.replicate 240 0
def goodFlit : List Byte := flitBody ++ leBytes 8 (crc64 0 flitBody).toNat
theorem witness_ChainCommands_flits :
    let h : Word := BitVec.ofNat 64 (leValue (goodFlit.take 8))
    let later := chained.modLink .west (fun x => { x with rxSeq := 5, failures := 6 })
    (chained.clocked = true ∧ chained.linkUp .west = true ∧ chained.linkUp .crossN = false ∧ (later.link .west).failures < 7 ∧
      7 ≤ ((later.modLink .west (fun x => { x with failures := 7 })).link .west).failures) ∧
      (goodFlit.length = 256 ∧ (crc64 0 (goodFlit.take 248)).toNat = leValue (goodFlit.drop 248) ∧ bitsOf h 32 5 ≠ 31 ∧
        BitVec.ofNat 12 (bitsOf h 52 12) = (chained.link .west).rxSeq + 1 ∧ BitVec.ofNat 12 (bitsOf h 52 12) ≠ (later.link .west).rxSeq + 1) ∧
      flitBody.length ≠ 256 := by
  set_option maxRecDepth 8000 in decide +kernel
def neighboured : State := (addressed.rset .sdAddr 0xC003).setNeighbour (linkNo .west) (some 6)
/-- The link west probes neighbour 6. -/
def probing : State := addressed.modLink .west (fun l => { l with probing := some 6 })
theorem witness_ChainCommands_links :
    (chained.neighbour (linkNo .west) = none ∧ (chained.setNeighbour 0 (some 6)).neighbour (linkNo .west) = some 6 ∧
      (chained.setNeighbour 0 (some 6)).otherRoute .west = false ∧ chained.sudon.hoStep = .idle ∧ chained.etch.mirrorSrc = none) ∧
      (neighboured.linkUp .west = true ∧ neighboured.neighbour (linkNo .west) = some 6 ∧ neighboured.otherRoute .west = true) ∧
      (let c := unit0.rset .sdCtrl 1
       c.linkUp .west = false ∧ (c.rget .sdCtrl).getLsbD 0 = true ∧ c.halted = false ∧ lanesUsed (linkLanes .west) 4 ≠ 0 ∧ lanesUsed (linkLanes .west) 0 = 0) ∧
      (addressed.halted = false ∧ addressed.hasAddr = true ∧ (5 : UnitAddr) ≠ addressed.unitAddr ∧ addressed.linkUp (opposite .west) = true ∧
        addressed.linkUp (opposite .crossN) = false ∧ (addressed.link (opposite .crossN)).probing ≠ some 5) ∧
      (addressed.link .west).probing = none ∧ (probing.link .west).probing = some 6 ∧ probing.clocked = true := by decide +kernel
def token4 (east : Bool) : Token := { own := true, east := east, ring := 0, position := 4, order := [3, 4] }
def anchored : State := { addressed with straps := { addressed.straps with anchor := true } }
theorem witness_ChainCommands_enumeration :
    (chained.straps.anchor = false ∧ chained.hasAddr = false ∧ chained.sudon.enumDone = false ∧ chained.sudon.tokenSeen = false ∧
      (chained.rget .sdAddrOvr).getLsbD 15 = false ∧ (token4 true).position ≠ 63 ∧ ({ token4 true with position := 63 } : Token).position = 63 ∧
      ∀ e, ({ token4 false with position := 0 } : Token).order.getLast? = some e → e.toNat < ((0 : BitVec 6) - 1).toNat) ∧
      (anchored.straps.anchor = true ∧ (token4 true).ring = anchored.straps.ring ∧ (token4 true).own = true ∧ (1 : BitVec 4) ≠ anchored.straps.ring ∧
        anchored.sudon.enumDone = false ∧ anchored.hasAddr = true ∧ anchored.sudon.westSent = false ∧ anchored.linkUp .west = true ∧
        (anchored.rset (.sdLink 0) 0).linkUp .west = false ∧ (anchored.rset (.sdLink 0) 0).hasAddr = true) ∧
      (let s : State := { anchored with sudon := { anchored.sudon with westSent := true } }
       s.sudon.westSent = true ∧ s.sudon.enumDone = false ∧ ([2, 3] : List (BitVec 6)).head? ≠ some (posOf s.unitAddr)) ∧
      (addressed.straps.anchor = false ∧ addressed.hasAddr = true ∧ addressed.sudon.enumDone = false ∧ addressed.sudon.place ≠ 63 ∧
        addressed.sudon.order.length < 64) ∧ ((62 : BitVec 6) ≠ 63) := by
  refine ⟨⟨by decide, by decide, by decide, by decide, by decide, by decide, by decide, fun e h => ?_⟩, by decide +kernel⟩
  rw [show ({ token4 false with position := 0 } : Token).order.getLast? = some 4 from rfl] at h
  cases h; decide

/-- A source 6 that is lost, with its drive at port 1; the takeover waits, and loads. -/
def lostHeader : AreaHeader :=
  { fmtid := 5, unit := 6, durBase := 0x100000, durSize := 0x1000, spillLba := 0, jringLba := 0, jringBlocks := 0x2000, imgLba := 0 }
def lostReplay : Replay :=
  { header := lostHeader, proof := 0, scsn := 0, markerPos := 0, pos := 0, expect := 1, applied := false, asking := [], firstAsked := none }
def lostMarker : Marker := { proof := 0, scsn := 3, jpos := 0, fmtid := 5, unit := 6, durSize := 0x1000 }
def lostDrive : Drive := (Drive.blank.putHeader 0 lostHeader).putMarker lostMarker
def losingWith (d : Drive) (h : Nat) : State :=
  { ((unit0.rset (.rpStat 1) 0x401).rset .takeSize (BitVec.ofNat 64 h)) with
      etch := { unit0.etch with mirrorSrc := some 6 }, sudon := { unit0.sudon with lost := [6] }, drive1 := d }
def losing : State := losingWith lostDrive 2
def takingAt (st : TakeStep) : State := { losing with sudon := { losing.sudon with take := st, takeUnit := 6, takeReplay := some lostReplay } }
theorem lost_header : lostDrive.header = some lostHeader :=
  header_of_first _ _ ((headerAt_putMarker _ _ _ (by decide)).trans
    (headerAt_putHeader _ _ _ (by decide) (by decide) (by decide) (by decide) (by decide) (by decide)))
theorem lost_marker : lostDrive.bestMarker lostHeader = some lostMarker :=
  bestMarker_alone (Drive.putMarker _ lostMarker) lostHeader lostMarker (markerAt_putMarker _ lostMarker (by decide) (by decide) (by decide) (by decide))
    (fun j h hj => ((markerAt_putMarker_apart _ lostMarker j h).trans (markerAt_putHeader _ _ j _ (by decide))).trans (blank_markers j hj)) rfl
theorem witness_TakeoverAndHandover_take :
    losing.reachesReg (.tile 0) .sdCmd ∧ (losing.etch.mirrorSrc = some 6 ∧ 6 ∈ losing.sudon.lost ∧ losing.sudon.take = .idle ∧ losing.driveUp 1 = true) ∧
      (losing.drive1.header = some lostHeader ∧ lostHeader.unit = 6 ∧ lostHeader.durSize + 2 ^ 24 ≤ losing.takeBytes) ∧
      (losingWith Drive.blank 2).drive1.header = none ∧ (losingWith lostDrive 1).takeBytes < lostHeader.durSize + 2 ^ 24 ∧
      unit0.etch.mirrorSrc = none ∧ (takingAt .loading).sudon.take ≠ .idle :=
  ⟨⟨rfl, by decide, rfl, rfl, rfl, rfl, rfl, rfl⟩, by decide +kernel, ⟨lost_header, rfl, by decide +kernel⟩, by decide +kernel, by decide +kernel, by decide +kernel,
    by decide +kernel⟩
theorem witness_TakeoverAndHandover_load :
    let s := takingAt .waiting
    (s.clocked = true ∧ s.sudon.take = .waiting ∧ s.sudon.takeReplay = some lostReplay ∧ (takingAt .loading).sudon.take = .loading ∧ losing.sudon.take ≠ .waiting) ∧
      s.drive1.bestMarker lostReplay.header = some lostMarker ∧
      (firstDenied s (s.decisionPoints s.takeBase (s.takeBase + lostHeader.durSize + 65536))).2 = false := ⟨by decide +kernel, lost_marker, by decide +kernel⟩
/-- Object 5, or the partition in slot 2, is asked to move to unit 9, in reach or not; the handover stands at a step. -/
def moving : State := { (unit0.rset (.hoDesc 0) (9 * 2 ^ 32 + 5)) with ports := [(5, { Port.reset with state := .open, world := .vault })] }
def movingPart : State := (unit0.rset (.hoDesc 0) (2 ^ 62 + 9 * 2 ^ 32 + 2)).rset (.partCtl 2) 0x4000000000000000
def movingStep (st : HoStep) : State := { moving with sudon := { moving.sudon with hoStep := st, hoTarget := 9, hoObj := 5, hoGen := 4 } }
theorem witness_TakeoverAndHandover_start :
    (moving.reachesReg (.tile 0) .sdCmd ∧ movingPart.reachesReg (.tile 0) .sdCmd) ∧ (let d := moving.rget (.hoDesc 0)
      bitsOf d 62 2 ≠ 1 ∧ (moving.port (bitsOf d 0 12)).state ≠ .free ∧ (moving.port (bitsOf d 0 12)).moved = none ∧ moving.rfield .hoStat 0 2 ≠ 1 ∧
        moving.sudon.hoStep = .idle ∧ (moving.rset (.sdReach 0) 0x200).reaches 9 = true ∧ moving.reaches 9 = false) ∧
      (bitsOf (movingPart.rget (.hoDesc 0)) 62 2 = 1 ∧ movingPart.partState (bitsOf (movingPart.rget (.hoDesc 0)) 0 4) = 1) ∧
      ((unit0.port 0).state = .free ∧ (movingStep .reserving).sudon.hoStep ≠ .idle) :=
  ⟨⟨⟨by decide +kernel, by decide +kernel, by decide +kernel, by decide +kernel, by decide +kernel, by decide +kernel, by decide +kernel, by decide +kernel⟩,
    ⟨by decide +kernel, by decide +kernel, by decide +kernel, by decide +kernel, by decide +kernel, by decide +kernel, by decide +kernel, by decide +kernel⟩⟩, by decide +kernel⟩
/-- A unit whose listener 0 has a pool; one that expects an object. -/
def pooled : State := { addressed with pools := [(0, some { cap := Cap.root 0, world := .main, troot := 0 })] }.rset (.lrange 0) 0x1000000000
def expected (part : Bool) : Incoming :=
  { sender := 9, partition := part, gen := 4, obj := 2, source := 2, arrived := false, csn := none, oldCur := 0, proof := 0, package := none }
def expecting (part : Bool) : State := { addressed with sudon := { addressed.sudon with incoming := [expected part] } }
theorem witness_TakeoverAndHandover_target :
    (pooled.clocked = true ∧ pooled.halted = false ∧ pooled.hasAddr = true ∧ unit0.hasAddr = false ∧ { pooled with halted := true }.halted = true ∧
      reservation0.partition = false ∧ (pooled.pool reservation0.tlist).isSome = true ∧ pooled.freeOf reservation0.tlist = some 0 ∧
      reservation0.bytes ≤ pooled.slotBytes reservation0.tlist ∧ pooled.slotBytes 0 < ({ reservation0 with bytes := 2 ^ 40 } : Reservation).bytes ∧
      addressed.pool reservation0.tlist = none) ∧
      (let s := (addressed.rset .durBase 0x100000).rset .durSize 0x4000000
       let q : Reservation := { reservation0 with partition := true, tslot := 15, tbase := 0x100000, size := 4 }
       s.partState q.tslot = 0 ∧ (s.rget .durBase).toNat ≤ q.tbase ∧ q.tbase + q.size * 2 ^ 24 ≤ (s.rget .durBase).toNat + (s.rget .durSize).toNat ∧
         ¬ (q.tbase + 5 * 2 ^ 24 ≤ (s.rget .durBase).toNat + (s.rget .durSize).toNat) ∧ (s.rset (.partCtl 15) 0x4000000000000000).partState q.tslot ≠ 0) ∧
      (∀ part ∈ [true, false], let x : Transfer := { transfer0 with partition := part }
        (expecting part).sudon.incoming = [expected part] ∧ (expected part).sender = x.sender ∧ (expected part).partition = x.partition ∧
          (expected part).obj = x.obj ∧ (expected part).gen = x.gen ∧ (expected part).arrived = false ∧ (expected part).package = none) ∧
      (∀ j ∈ addressed.sudon.incoming, j.sender ≠ transfer0.sender) := by decide +kernel
theorem witness_TakeoverAndHandover_answers :
    ((movingStep .reserving).clocked = true ∧ (movingStep .reserving).halted = false ∧ (movingStep .reserving).sudon.hoStep = .reserving ∧
      (movingStep .reserving).hoMatches false 5 4 = true ∧ (movingStep .reserving).hoMatches false 6 4 = false ∧ (movingStep .drain).hoMatches false 5 4 = true) ∧
      ((movingStep .transferring).sudon.hoStep = .transferring ∧ (movingStep .transferring).hoMatches false 5 4 = true ∧
        { movingStep .transferring with halted := true }.sequencerRuns = false) ∧
      ((movingStep .drain).sudon.hoStep = .drain ∧ (movingStep .drain).sudon.hoCsn ≤ (movingStep .drain).durable ∧
        { movingStep .drain with halted := true }.sequencerRuns = false) ∧
      ((expecting true).sudon.hoStep = .idle ∧ (expecting true).clocked = true ∧ addressed.sudon.incoming = []) := by decide +kernel

/-! ### Witnesses: clocks, gates, Bellows, recorder, debug, boot and host -/

theorem witness_ClocksGatesLinks_unit : (unit0.clocked = true ∧ unit0.powered = true ∧ (unit0.rset (.gateStat 7) 1).rfield (.gateStat 7) 0 1 = 1 ∧
    unit0.rfield (.gateStat 7) 0 1 = 0) ∧
    unit0.reachesReg (.tile 0) (.gateSync 7) := ⟨by decide, ⟨rfl, rfl, rfl, rfl, rfl, rfl, rfl, rfl⟩⟩
theorem witness_ClocksGatesLinks_regions :
    unit0.reachesReg (.tile 0) (.gAttr 11 31) ∧ unit0.isLocked 11 31 = false ∧ (unit0.rset (.gAttr 11 31) 0x8000000000000001).reachesReg (.tile 0) (.gAttr 11 31) ∧
      (unit0.rset (.gAttr 11 31) 0x8000000000000001).isLocked 11 31 = true ∧ unit0.reachesReg .host (.gAttr 0 0) :=
  ⟨⟨rfl, rfl, rfl, rfl, rfl, rfl, rfl, rfl⟩, by decide, ⟨rfl, rfl, rfl, rfl, rfl, rfl, rfl, rfl⟩, by decide, ⟨rfl, rfl, rfl, rfl, rfl, rfl, rfl, rfl⟩⟩
theorem witness_ClocksGatesLinks_links :
    ((unit0.rset (.macCtrl 7) 1).rfield (.macCtrl 7) 0 2 ≠ 0 ∧ (unit0.rset (.macCtrl 7) 1).bellows.etherLost = false ∧ unit0.rfield (.macCtrl 7) 0 2 = 0) ∧
      (((unit0.rset (.rpCtrl 1) 1).rget (.rpCtrl 1)).getLsbD 0 = true ∧ (unit0.rset (.rpCtrl 1) 1).power 96 ≠ .off ∧
        ((unit0.rset (.rpCtrl 1) 0).rget (.rpCtrl 1)).getLsbD 0 = false) ∧
      ((driven.rget (.rpStat 1)).getLsbD 0 = true ∧ (opened.rget (.rpStat 0)).getLsbD 0 = true ∧ opened.journalOpen = true ∧ formatting.etchBit 7 = true ∧
        (formatting.rget (.rpStat 0)).getLsbD 0 = true ∧ (unit0.rget (.rpStat 0)).getLsbD 0 = false) := by
  decide +kernel
/-- Bellows regulates; a step change settles; domains 3, 5 and 96 off their ACTIVE state. -/
def regulated : State := unit0.rset .bwCtrl 1
def settling : State :=
  { unit0 with bellows := { unit0.bellows with settling := some 2, thermalCap := true, domains := [(3, .retention), (5, .waking), (96, .off)] } }
theorem witness_BellowsCommands :
    (unit0.clocked = true ∧ regulated.bwOn = true ∧ (unit0.rset .bwCtrl 0).bwOn = false ∧ settling.bellows.settling = some 2 ∧ unit0.bellows.settling = none ∧
      (unit0.rget .pmbCfg).getLsbD 15 = false ∧ ((unit0.rset .pmbCfg 0x8000).rget .pmbCfg).getLsbD 15 = true) ∧
      (settling.bellows.thermalCap = true ∧ (∀ k, k < 20 → settling.temp k < (((settling.rget .tjHot).toNat : Int) - 5) * 4) ∧ unit0.bellows.thermalCap = false) ∧
      (let hot := settling.rset (.temp 19) 400
       ¬ hot.temp 19 < (((hot.rget .tjHot).toNat : Int) - 5) * 4) ∧
      (unit0.power 63 = .active ∧ unit0.tileBusy 63 = false ∧ unit0.force 63 ≠ 1 ∧ (∀ k, k < 8 → unit0.dueVectors (BitVec.ofNat 9 (8 * 63 + k)) = []) ∧ unit0.tileBusy 0 = true) ∧
      settling.power 3 = .retention ∧ unit0.power 3 ≠ .retention ∧ unit0.power 98 = .active ∧ unit0.force 98 ≠ 1 ∧ (unit0.rset (.domctl 98) 1).force 98 = 1 ∧
      settling.power 5 = .waking ∧ unit0.power 5 ≠ .waking := by decide +kernel
theorem witness_BellowsCommands_domctl :
    (unit0.reachesReg (.tile 0) (.domctl 96) ∧ settling.reachesReg (.tile 0) (.domctl 3)) ∧ bitsOf (2 : Word) 0 2 = 2 ∧ bitsOf (0 : Word) 0 2 ≠ 2 ∧ bitsOf (1 : Word) 0 2 = 1 ∧
      settling.power 96 = .off ∧ settling.power 3 = .retention :=
  ⟨⟨⟨rfl, rfl, rfl, rfl, rfl, rfl, rfl, rfl⟩, ⟨rfl, rfl, rfl, rfl, rfl, rfl, rfl, rfl⟩⟩, by decide⟩
def event0 : Event := { code := 0x301, source := 5, payload := [1, 2, 3] }
def keyed (n : Nat) : State := { unit0 with cal := { unit0.cal with keys := n, staging := [(0x1FFC, 0xEA), (0x1FFD, 0xD4), (0x1FFE, 0xB1), (0x1FFF, 0x0D)] } }
theorem witness_StoreAndRecorder :
    (∀ m ∈ ([.tile 0, .host] : List Master), ∀ r ∈ ([.calKey, .calCmd, .recCursor, .vdbgAuth] : List RName), unit0.powered = true ∧ regAt r.addr = some r ∧
        unit0.target r.addr = .mmio ∧ unit0.gateAccess m r.addr false true none = (unit0, .allow) ∧ unit0.refusal m r.addr true = none ∧
        unit0.isDurable r.addr = false ∧ unit0.heldByOther none (r.addr / 64) = false ∧ unit0.posted = []) ∧
      (unit0.isVs (.tile 0) = true ∧ unit0.isVs .host = false ∧ (keyed 1).cal.keys = 1 ∧ (keyed 1).timeNow ≤ (keyed 1).cal.keyAt + 100000 ∧
        (let late : State := { keyed 1 with timeNow := 100001 }
         late.cal.keyAt + 100000 < late.timeNow) ∧
        (keyed 2).cal.keys = 2 ∧ (keyed 2).cal.busy = false ∧ (keyed 2).cal.erases < 1000 ∧ unit0.cal.keys ≠ 2 ∧
        1000 ≤ ({ (keyed 2).cal with erases := 1000 } : Calibration).erases ∧ (7 : Word) ≠ 0x0CA1 ∧ (7 : Word) ≠ 0x05E7) ∧
      { unit0 with recorder := { unit0.recorder with queue := [event0] } }.recorder.queue = [event0] ∧ unit0.recorder.queue = [] ∧
      { unit0 with cal := { unit0.cal with busy := true } }.cal.busy = true := by decide +kernel
theorem witness_StoreAndRecorder_window :
    ∀ k ∈ [0, 4], let a := (RName.recWindow 3).addr + k
      unit0.gateAccess .debug a true false none = (unit0, .allow) ∧ unit0.refusal .debug a false = none ∧ unit0.heldByOther none (a / 64) = false := by decide +kernel
/-- Debug is open by fuse, thread 0 selected, register 4 selected. -/
def debugged (st : TState) : State := { (onRunner (fun th => { th with st := st }) loaded) with fuseDebug := true, dbg := { loaded.dbg with regSel := 4 } }
def selecting (k : BitVec 8) : State := { debugged .stopped with dbg := { loaded.dbg with regSel := k } }
theorem witness_DebugCommands :
    ((debugged .ready).powered = true ∧ (debugged .ready).dbgBusy = false ∧ (debugged .ready).dbgClosed = false ∧ { debugged .ready with fuseDebug := false }.dbgClosed = true ∧
      { debugged .ready with busWaits := [{ host := false, addr := 0, len := 8, data := none }] }.dbgBusy = true) ∧
      (((debugged .ready).thr 0).st = .ready ∧ ((debugged .ready).thr 0).resume = false ∧ ((debugged .ready).plate 0).phase = .none) ∧
      (((debugged .stopped).thr 0).st = .stopped ∧ ((debugged .stopped).thr 0).entry = none ∧ ((debugged .empty).thr 0).st = .empty) ∧
      ((selecting 4).dbg.regSel.getLsbD 7 = false ∧ (4 : Reg) ≠ 0 ∧ (selecting 4).dbg.regSel.toNat % 64 = (4 : Reg).toNat ∧ (selecting 32).dbg.regSel.toNat % 64 = 32 ∧
        (selecting 0).dbg.regSel.toNat % 64 = 0 ∧ (selecting 0xC4).dbg.regSel.getLsbD 6 = true ∧
        (selecting 0x84).dbg.regSel.getLsbD 7 = true ∧ (selecting 0x84).dbg.regSel.getLsbD 6 = false ∧ (selecting 0x84).dbg.regSel.toNat % 64 = (4 : Reg).toNat) ∧
      (bitsOf (0x2004 : Word) 0 46 % 8 ≠ 0 ∧ bitsOf (0xFFFFFFFFF8 : Word) 0 46 % 8 = 0) := by decide +kernel
theorem witness_DebugCommands_memory :
    let x := (debugged .ready).selectXfer
    let shutOff := (shut 10 (debugged .ready)).selectXfer
    let heldUp := (heldLine (debugged .ready)).selectXfer
    (x.busRead .debug 0x2000 8).2.1 = .ok ∧ (x.busWrite .debug 0x2000 (leBytes 8 5)).2 = .ok ∧
      (shutOff.busRead .debug RName.ksel.addr 8).2.1 = .error ∧ (shutOff.busWrite .debug RName.ksel.addr (leBytes 8 5)).2 = .error ∧
      (heldUp.busRead .debug 0x2000 8).2.1 = .wait ∧ (heldUp.busWrite .debug 0x2000 (leBytes 8 5)).2 = .wait := by decide +kernel
/-- Out of cold reset, with straps that let the unit boot from flash; DDR5 trained. -/
def booting : State := (unit0.rset .bootStat 1).rset .sdCtrl 1
def booting0 : State := { booting with channels := [], boot := { Boot.reset with porst := false } }
def loading : State := { (unit0.rset .bootStat 3) with boot := { Boot.reset with porst := false, step4 := true, ddrTrained := true } }
theorem witness_ResetsAndBoot :
    (State.reset.boot.porst = true ∧ unit0.boot.porst = false ∧ unit0.thermTrip = false ∧ unit0.boot.ddrTrained = false ∧ loading.boot.ddrTrained = true ∧
      loading.etch.draining = false ∧ loading.boot.porst = false ∧ loading.thermTrip = false ∧
      (withEtch (fun e => { e with draining := true }) loading).etch.draining = true ∧ ({ unit0 with thermTrip := true } : State).thermTrip = true) ∧
      (booting.halted = false ∧ (booting.rget .sdCtrl).getLsbD 0 = true ∧ booting.linkUp .crossN = false ∧ lanesUsed (linkLanes .crossN) 8 ≠ 0 ∧
        booting.straps.anchor = false ∧ booting.hasAddr = false ∧ booting.linkUp .west = false) ∧
      (let s : State := { booting with straps := { booting.straps with anchor := true } }
       s.straps.anchor = true ∧ s.hasAddr = false ∧ s.sudon.eastSent = false ∧ s.sudon.enumDone = false ∧ (s.rget .sdAddrOvr).getLsbD 15 = false ∧ s.linkUp .east = false) ∧
      (booting0.powered = true ∧ booting0.rfield .bootStat 0 4 = 1 ∧ booting0.boot.ddrTrained = false ∧ booting0.channels = [] ∧ booting0.boot.step4 = false ∧
        ({ booting0 with boot := { booting0.boot with ddrTrained := true } } : State).boot.ddrTrained = true) ∧
      (loading.powered = true ∧ loading.boot.step4 = true ∧ loading.rfield .bootStat 0 4 = 3 ∧ loading.rfield .bootStat 16 1 = 0) := by decide +kernel
/-- A header of zeros fails its first check; one for a body of 16 bytes at 0x4000 passes, and the body is written unless a gate denies it. -/
def header16 : List Byte := leBytes 4 0x38365454 ++ leBytes 4 1 ++ leBytes 8 16 ++ leBytes 8 0x4000 ++ List.replicate 488 0
def body16 : List Byte := List.replicate 16 7
theorem witness_ResetsAndBoot_image :
    let second := loading.rset .bootStat 0x10003
    loading.headerCheck (List.replicate 512 0) = some 1 ∧ loading.headerCheck header16 = none ∧ (loading.loadBody header16 body16).2 = true ∧
      (loading.loadBody header16 []).2 = true ∧ (loading.loadBody header16 []).1.signatureCheck header16 [] = some 3 ∧
      (loading.loadBody header16 []).1.rfield .bootStat 16 1 = 0 ∧
      (second.rfield .bootStat 16 1 = 1 ∧ second.rfield .bootStat 0 4 = 3 ∧ second.headerCheck (List.replicate 512 0) = some 1 ∧ second.straps.bootsrc ≠ 2 ∧
        ({ second with straps := { second.straps with bootsrc := 2 } } : State).straps.bootsrc = 2) ∧
      ((shut 0 loading).headerCheck header16 = none ∧ ((shut 0 loading).loadBody header16 body16).2 = false ∧ (shut 0 loading).powered = true ∧
        (shut 0 loading).rfield .bootStat 0 4 = 3) := by decide +kernel
/-- With an unprogrammed KEYHASH, a signature that verifies is all that is left to check. -/
theorem witness_ResetsAndBoot_accepted
    (h : Config.signatureVerifies (sliceBytes header16 0xC0 96) (sliceBytes header16 0x180 96) (Config.sha384 (header16.take 0x180 ++ body16)) = true) :
    (loading.loadBody header16 body16).1.signatureCheck header16 body16 = none := by
  have hk : (loading.loadBody header16 body16).1.keyHash = 0 := by decide +kernel
  have hl : body16.length = leValue (sliceBytes header16 8 8) := by decide +kernel
  simp only [State.signatureCheck, hk, h]
  simp [← hl]
def hosted : State := { unit0 with boot := { unit0.boot with epLinkUp := true, step4 := true } }
/-- The host has a write waiting; a host image is being taken. -/
def queueing : State := { hosted with busWaits := [{ host := true, addr := 0x2000, len := 8, data := some [1] }] }
def taking : State := { hosted with boot := { hosted.boot with hostLocked := true } }
theorem witness_HostAndRegisters_doorbells :
    (unit0.reachesReg .host .mbH2uDb ∧ unit0.reachesReg (.tile 0) .mbU2hDb ∧ unit0.reachesReg .host .mbU2hDb ∧ unit0.reachesReg (.tile 0) .hostIrq) ∧
      unit0.rfield .bootStat 0 4 ≠ 4 ∧ 8 ≤ (8 : Word).toNat % 2048 ∧ (7 : Word).toNat % 2048 < 8 ∧ unit0.msixHeld 8 = true ∧
      ({ unit0 with msix := { unit0.msix with enable := true } }.rset (.msixTable 17) 0).msixHeld 8 = false :=
  ⟨⟨⟨rfl, rfl, rfl, rfl, rfl, rfl, rfl, rfl⟩, ⟨rfl, rfl, rfl, rfl, rfl, rfl, rfl, rfl⟩, ⟨rfl, rfl, rfl, rfl, rfl, rfl, rfl, rfl⟩,
    ⟨rfl, rfl, rfl, rfl, rfl, rfl, rfl, rfl⟩⟩, by decide +kernel⟩
theorem witness_HostAndRegisters_requests :
    let noDram : State := { hosted with boot := { hosted.boot with step4 := false } }
    let shutOff := shut 10 hosted
    (hosted.powered = true ∧ hosted.boot.epLinkUp = true ∧ hosted.boot.step4 = true ∧ hosted.boot.hostLocked = false ∧
      hosted.busWaits.any (fun w => w.host && w.data.isSome) = false ∧ noDram.boot.step4 = false ∧ unit0.boot.epLinkUp = false ∧
      taking.boot.hostLocked = true ∧ taking.boot.step4 = true ∧ queueing.busWaits.any (fun w => w.host && w.data.isSome) = true) ∧
      (∀ bar2 ∈ [true, false], let b := hosted.barAddr bar2 0x100
        ((hosted.active 95 1 0).busRead .host b 8).2.1 = .ok) ∧
      ((shutOff.active 95 1 0).busRead .host (shutOff.barAddr false 0x100) 8).2.1 = .error ∧
      (((heldLine hosted).active 95 1 0).busRead .host (hosted.barAddr true 0x2000) 8).2.1 = .wait ∧
      ((hosted.active 95 1 (blocks64 4)).busWrite .host (hosted.barAddr true 0xFFFFF8) [1, 2, 3, 4]).2 = .ok ∧
      ((shutOff.active 95 1 (blocks64 4)).busWrite .host (shutOff.barAddr false 0x100) [1, 2, 3, 4]).2 = .error := by decide +kernel
theorem witness_HostAndRegisters_registers :
    (∀ r ∈ ([.mbH2u 0, .mbU2h 7, .mbH2uVec, .bwCtrl, .planPin, .classmap, .tjHot, .pmbCfg, .recVec, .sdAddrOvr, .sdVec 3, .takeBase, .takeSize, .hoDesc 0,
        .macAddr 0, .macMtu 7, .rawBase true 0, .ksel, .peCtrl, .unitId, .bootStat, .durableCsn, .jpos] : List RName),
      unit0.powered = true ∧ regAt r.addr = some r ∧ unit0.target r.addr = .mmio ∧ unit0.gateAccess (.tile 0) r.addr false true none = (unit0, .allow) ∧
        unit0.refusal (.tile 0) r.addr true = none ∧ unit0.isDurable r.addr = false ∧ unit0.heldByOther none (r.addr / 64) = false ∧ unit0.posted = []) ∧
      (∀ r ∈ ([.durBase, .durSize, .jringLba, .jringBlocks, .imgLba, .spillLba, .fmtid] : List RName),
        opened.powered = true ∧ regAt r.addr = some r ∧ opened.target r.addr = .mmio ∧ opened.gateAccess (.tile 0) r.addr false true none = (opened, .allow) ∧
          opened.refusal (.tile 0) r.addr true = none ∧ opened.isDurable r.addr = false ∧ opened.heldByOther none (r.addr / 64) = false ∧ opened.posted = []) ∧
      opened.etch.locked = true ∧ (mmioBase ≤ mmioBase ∧ mmioBase + 0x3FFFFFF < mmioBase + 0x4000000) := by decide +kernel
/-! ### Witnesses: the other outcomes of loads, stores, calls and requests -/

/-- A Device value that has been read; two loads of one granule. -/
def outstanding (l : List Out) : State := onRunner (fun th => { th with outs := l }) loaded
def load0 (k : Nat) : Out := { stamp := k, rd := 3, te := false, kind := .load [(0x2000, 8)] false false true }
theorem witness_OutstandingAccesses_others :
    let d := outstanding [{ stamp := 5, rd := 3, te := false, kind := .device (int 7) }]
    let two := outstanding [load0 5, load0 6]
    ((d.thr 0).st = .ready ∧ (d.plate 0).abortable = false ∧ (d.plate 0).pdepth = 0) ∧
      ((two.thr 0).outs[1]? = some (load0 6) ∧ outsTouch ((two.thr 0).outs.take 1) (load0 6).kind.granules = true) ∧
      (heldLine missed).heldByOther (some 0) (0x200 / 4) = true ∧ ((heldLine missed).plate 0).abortable = false := by decide
theorem witness_StoreVisibility_waits :
    ((heldLine capStoring).thr 0).st = .ready ∧ ((heldLine capStoring).thr 0).stores.all (fun p => !storeMayComplete (heldLine capStoring) 0 0 p) = true ∧
      ((heldLine capStoring).thr 0).stores.length = 1 := by decide
/-- A call from the Main world to a page of the Main world, and to one whose walk leaves DRAM. -/
def crossing : State :=
  let page : TlbEntry := { asid := 7, world := .vault, level := 1, page := 16, leaf := true, entry := 0x40200000050F, bad := false }
  onRunner (fun th => { th with world := .main, trootV := 0x10001007 })
    (withRegs [(4, (Cap.root 0x4300000010).setSeal 0xFFD)] { unit0 with tiles := [(0, { Tile.reset with l1i := [(64, [])], tlb := [page] })] })
def walking : State := onRunner (fun th => { th with trootM := 0x3F0000001000 }) entering
def excOf (a : TrAns) : Nat × Nat :=
  match a with
  | .exc c d => (c, d)
  | _ => (0, 0)
theorem witness_SystemCalls_others :
    let c := goes crossing { srcs := [4] }
    let w := goes walking { srcs := [4] }
    (∀ s ∈ [inPlate, claimedBrk], Issues s 0 {} (goes s {})) ∧ (∀ s ∈ [inPlate, crossing, walking], Issues s 0 { srcs := [4] } (goes s { srcs := [4] })) ∧
      (((goes inPlate {}).thr 0).plate.pdepth ≠ 0 ∧ ((goes inPlate {}).thr 0).brkClaim = false) ∧
      c.translateAs 0 .vault .supervisor 0x4300000010 ⟨false, false, true⟩ false = (c, .ok { pa := 0x2300000010, ptype := .normal, world := .main }) ∧
      (excOf (w.translateAs 0 .main .supervisor 0x2000 ⟨false, false, true⟩ false).2).1 = 0x0B := by
  refine ⟨fun s h => issues_of s _ (by revert s; decide +kernel), fun s h => issues_of s _ (by revert s; decide +kernel), by decide +kernel, by decide +kernel, by decide +kernel⟩
theorem witness_ExceptionReturn_illegal :
    let first := statusGranule .main .user 3
    let r := frameValues (returns first) 0 true (frameSegs first)
    Issues (framedAt first) 0 { supervisor := true, srcs := [1], dests := [1, 2, 3, 31] } (returns first) ∧
      frameChecks (returns first) 0 (((returns first).thr 0).reg 1) 8 0 = (returns first, .ok (frameSegs first)) ∧
      (let f := (r.2[0]?).getD Cap.null
       f.tag = true ∧ f.seal = 0xFFF ∧ ¬ (f.cursor / 4 % 2 = 1 ↔ ((returns first).thr 0).world = .vault)) :=
  ⟨issues_of _ _ (by decide +kernel), by decide +kernel, by decide +kernel⟩
theorem witness_ThreadStart_asleep :
    let s : State := { (asked.rset .planTiles 3) with bellows := { asked.bellows with domains := [(1, .retention)] } }
    (s.thr 0).st = .waiting (.tstart 1 9 .supervisor (Cap.root 0x4000) (int 77)) ∧ (s.rget .planTiles).getLsbD (tileOf 9) = true ∧ (s.thr 9).st = .empty ∧
      s.power (tileOf 9) ≠ .active := by decide +kernel
/-- A broadcast that tile 0 has yet to answer, with an access of its thread outstanding or not. -/
theorem witness_BroadcastInvalidation_tiles :
    let main := onRunner (fun th => { th with world := .main }) loaded
    let busy := onRunner (fun th => { th with outs := [load0 1] }) invalidating
    Issues main 0 { supervisor := true, srcs := [2] } (goes main { supervisor := true, srcs := [2] }) ∧
      (((main.thr 0).reg 2).low.getLsbD 1 = true ∧ ((goes main { supervisor := true, srcs := [2] }).thr 0).world = .main ∧
        ((goes loaded { supervisor := true, srcs := [2] }).thr 0).storesOut = false) ∧
      (invalidating.invals.length = 1 ∧ ∀ i ∈ invalidating.invals, i.tid = 0 ∧ 0 ∈ i.tiles ∧ i.gone = []) ∧
      tileBusy busy 0 (busy.fresh + 1) = true ∧ tileBusy invalidating 0 (invalidating.fresh + 1) = false :=
  ⟨issues_of _ _ (by decide +kernel), by decide +kernel⟩
theorem witness_MoneySums_illegal : (35 < (36 : BitVec 6).toNat ∧ (36 : BitVec 6) ≠ 63) ∧ ((63 : BitVec 6) = 63 ∧ (1 : BitVec 3) ≠ 0) ∧
    ((0 : BitVec 6) ≠ 63 ∧ (7 : BitVec 3) = 7) := by decide
theorem witness_MoneyProducts_stopped :
    let s := onRunner (fun th => { th with st := .stopped }) trapWaits
    (s.thr 0).st = .stopped ∧ (s.thr 0).outs.map (·.kind) = [.moneyTrap true 0x0E] ∧ (trapWaits.thr 0).st ≠ .stopped := by decide
theorem witness_MoneyVoid_divide :
    ∀ s ∈ [odd (1 <<< 127), odd 0x3FFF], Issues s 0 quotients (goes s quotients) := fun s h => issues_of s _ (by revert s; decide +kernel)
theorem witness_BlockChecks_twice : ((3 : Reg) ≠ 0 ∧ ((3 : Reg) = 3 ∨ (3 : Reg) = 5)) ∧ ((4 : Reg) ≠ 0 ∧ (4 : Reg) = 4) := by decide
/-- BMOV downwards from 0x2004, and of whole granules with their tags. -/
def copying (c : Cap) (n : Nat) : State := withRegs [(3, Cap.root 0x2010), (1, c), (2, int n)] loaded
theorem witness_BlockIterations_others :
    let down := moves (Cap.root 0x2004) 50
    let q := loadReq (Cap.root 0x2004) 1 0x2000 4 1
    let d := dramAfter (checked down q) [(0x2000, 4)]
    let p := storeReq (Cap.root 0x2004) 3 0x2000 4 1 []
    let whole := goes (copying (Cap.root 0x2010) 16) { srcs := [3, 1, 2], dests := [3, 1, 2] }
    let r := loadReq (Cap.root 0x2010) 1 0x2010 16 16
    let e := dramAfter (checked whole r) [(0x2010, 16)]
    let k : Cap := ⟨BitVec.ofNat 128 e.2, true⟩
    let w := storeReq (Cap.root 0x2010) 3 0x2010 16 16 (capStoreRights k)
    (Issues (strings (Cap.root 0x2004) 50) 0 { srcs := [3, 1, 2], dests := [3, 1, 2] } down ∧
      Issues (copying (Cap.root 0x2010) 16) 0 { srcs := [3, 1, 2], dests := [3, 1, 2] } whole) ∧
      ((Cap.root 0x2004).ea (-4) = 0x2000 ∧ min 50 (0x2004 % 16) = 4 ∧ down.check 0 q = (checked down q, .ok [segAt down q]) ∧
        d.1.check 0 p = (checked d.1 p, .ok [segAt d.1 p]) ∧ (segAt d.1 p).va = 0x2000 ∧ (segAt d.1 p).len = 4) ∧
      (whole.check 0 r = (checked whole r, .ok [segAt whole r]) ∧ (loadTag (checked whole r) 0 (checked whole r).fresh [(0x2010, 16)]) = true ∧
        e.1.check 0 w = (checked e.1 w, .ok [segAt e.1 w]) ∧ (segAt e.1 w).va = 0x2010 ∧ (segAt e.1 w).len = 16) := by
  refine ⟨⟨issues_of _ _ (by decide +kernel), issues_of _ _ (by decide +kernel)⟩, by decide +kernel, by decide +kernel⟩
/-- A journalled request in an open journal. -/
def journalling : State := ringFull.rset .jpos 0
theorem witness_CommitSequencing_kinds :
    (requested.isJournalled (requested.plate 0) = false ∧ requested.etch.recs = [] ∧ Map.sorted (requested.plate 0).writes = true) ∧
      ((journalling.setEtchBit 8 true).isJournalled (journalling.plate 0) = true ∧ (journalling.setEtchBit 8 true).sequencerRuns = true ∧
        nextRequest (journalling.setEtchBit 8 true) false journalling.etch.queue = some (Committer.thread 0) ∧ journalling.etch.recs = []) ∧
      { requested with halted := true }.sequencerRuns = false ∧ loaded.waitsForSpace 0 = false ∧ (loaded.plate 0).abortable = false := by decide +kernel
theorem witness_NetworkCommands_engine :
    let s := net connection
    let off := s.rset .peCtrl 0
    let counted (s : State) (f : Frame) : State := (s.active 88 1 (blocks64 (f.octets + 4))).rcount (.macCnt 0 0)
    let f := frame0 segment0
    let other : Packet := { packet0 segment0 with payload := .other }
    (s.engineOn = true ∧ off.engineOn = false ∧ (counted off f).engineOn = false ∧ (counted s f).engineOn = true ∧ (counted s f).dropsFrame 0 f = false ∧
      (counted s { f with secondTag := true }).dropsFrame 0 { f with secondTag := true } = true) ∧
      ((counted s { f with packet := none }).dropsFrame 0 { f with packet := none } = false ∧ (counted s { f with packet := some other }).dropsFrame 0 { f with packet := some other } = false) ∧
      (counted s (frame0 stray)).portOf (packet0 stray) stray = none ∧ (counted s (frame0 reset0)).portOf (packet0 reset0) reset0 = some 5 ∧
      (s.port 5).gone = false ∧ (s.port 5).notice ≠ .reset ∧ (s.port 5).timeWait = false ∧ (s.port 5).fwdWindow = false ∧
      (s.rset (.macCtrl 0) 1).clocked = true ∧ ((s.rset (.macCtrl 0) 1).rget (.macCtrl 0)).getLsbD 2 = false := by decide +kernel

/-! ### The package -/

/-- The worked example of R439. -/
theorem test_balls : ballName 29 29 = some "AK29" ∧ centreSupply 29 29 = some .vss ∧ ballName 29 30 = some "AK30" ∧ centreSupply 29 30 = some .core ∧
    ballName 18 3 = some "W3" ∧ ballRegion 18 3 = some .westSerdes ∧ ballName 57 1 = some "BY1" ∧ ballRegion 42 56 = some (.memory 7) := by decide +kernel

end Sys2Proof.Tests
end

section
/-! What no command changes (95_what_each_step_holds.md, R2, R411, R426): the queue behind a command and the fuses of the part. `State.fixed` holds both; for every
function of the model that answers a state, one lemma says that it keeps them, each from the lemmas of the functions that it calls. -/

namespace Sys2Proof.Machine

/-- The waiting commands and the fuses. -/
def State.fixed (s : State) : List Instr × Bool × Bool × BitVec 384 := (s.pending, s.i20, s.fuseDebug, s.keyHash)

theorem State.fixed_eq_iff {s u : State} : u.fixed = s.fixed ↔ u.pending = s.pending ∧ u.fuses = s.fuses := by
  simp [State.fixed, State.fuses]

/-- A state that is written out field by field, as an update of some fields is. -/
@[simp] theorem State.fixed_mk pending i20 straps fuseDebug keyHash timeNow fresh halted thermTrip threads tiles ctlb l2 mem gran ue weak sramErr busWaits
    posted rawWaits channels regs gateOld gateMark rawStopped invals etch drive0 drive1 ports pools keys stagedKey stagedIv sudon bellows cal recorder dbg
    boot msix out :
    (State.mk pending i20 straps fuseDebug keyHash timeNow fresh halted thermTrip threads tiles ctlb l2 mem gran ue weak sramErr busWaits posted rawWaits
      channels regs gateOld gateMark rawStopped invals etch drive0 drive1 ports pools keys stagedKey stagedIv sudon bellows cal recorder dbg boot msix
      out).fixed =
      (pending, i20, fuseDebug, keyHash) := by
  simp only [State.fixed]

@[simp] theorem State.fixed_eta (s : State) : (s.pending, s.i20, s.fuseDebug, s.keyHash) = s.fixed := rfl

@[simp] theorem State.fixed_ite (c : Prop) [Decidable c] (a b : State) : (if c then a else b).fixed = if c then a.fixed else b.fixed := apply_ite _ _ _ _

@[simp] theorem foldl_fixed {α : Type} (f : State → α → State) (h : ∀ s x, (f s x).fixed = s.fixed) (l : List α) (s : State) :
    (l.foldl f s).fixed = s.fixed := by
  induction l generalizing s with
  | nil => rfl
  | cons x r ih => rw [List.foldl_cons, ih, h]

/-! ### The states that answers carry -/

/-- The state that the body of an instruction leaves. -/
def Act.state : Act → State
  | .done s | .jump s | .again s | .raise s _ | .ue s _ _ | .abort s _ | .wait s _ | .hold s _ => s

@[simp] theorem Act.state_done (s : State) : (Act.done s).state = s := rfl
@[simp] theorem Act.state_jump (s : State) : (Act.jump s).state = s := rfl
@[simp] theorem Act.state_again (s : State) : (Act.again s).state = s := rfl
@[simp] theorem Act.state_raise (s : State) (e : Exc) : (Act.raise s e).state = s := rfl
@[simp] theorem Act.state_ue (s : State) (d : Bool) (e : Exc) : (Act.ue s d e).state = s := rfl
@[simp] theorem Act.state_abort (s : State) (a : AbortInfo) : (Act.abort s a).state = s := rfl
@[simp] theorem Act.state_wait (s : State) (w : WaitWhy) : (Act.wait s w).state = s := rfl
@[simp] theorem Act.state_hold (s : State) (w : ParkWhy) : (Act.hold s w).state = s := rfl

/-- The state that performing an access leaves. -/
def Perf.state {α : Type} : Perf α → State
  | .ok s _ | .abort s _ => s

@[simp] theorem Perf.state_ok {α : Type} (s : State) (v : α) : (Perf.ok s v).state = s := rfl
@[simp] theorem Perf.state_abort {α : Type} (s : State) (a : AbortInfo) : (Perf.abort s a : Perf α).state = s := rfl

/-- The state that an admission from s leaves. -/
def Admit.state (s : State) : Admit → State
  | .idle => s
  | .stopped u | .go u => u

@[simp] theorem Admit.state_stopped (s u : State) : (Admit.stopped u).state s = u := rfl
@[simp] theorem Admit.state_go (s u : State) : (Admit.go u).state s = u := rfl

/-- Of a pair that is known, the state. -/
theorem fixed_of_fst {α : Type} {p : State × α} {u s : State} {a : α} (h : p = (u, a)) (hp : p.1.fixed = s.fixed) : u.fixed = s.fixed := by
  rw [← hp, h]

theorem fixed_of_ok {α : Type} {p : Perf α} {u s : State} {v : α} (h : p = .ok u v) (hp : p.state.fixed = s.fixed) : u.fixed = s.fixed := by
  rw [← hp, h, Perf.state_ok]

theorem fixed_of_abort {α : Type} {p : Perf α} {u s : State} {a : AbortInfo} (h : p = .abort u a) (hp : p.state.fixed = s.fixed) : u.fixed = s.fixed := by
  rw [← hp, h, Perf.state_abort]

theorem fixed_getD {s d : State} {o : Option State} (ho : ∀ u, o = some u → u.fixed = s.fixed) (hd : d.fixed = s.fixed) : (o.getD d).fixed = s.fixed := by
  cases o with
  | none => exact hd
  | some u => exact ho u rfl

theorem state_getD {s : State} {o : Option Act} {d : Act} (ho : ∀ a, o = some a → a.state.fixed = s.fixed) (hd : d.state.fixed = s.fixed) :
    (o.getD d).state.fixed = s.fixed := by
  cases o with
  | none => exact hd
  | some a => exact ho a rfl

/-! ### Machine/Regs -/

@[simp] theorem State.rset_fixed (s : State) (r : RName) (v : Word) : (s.rset r v).fixed = s.fixed := by simp [State.rset]
@[simp] theorem State.rsetField_fixed (s : State) (r : RName) (lo w x : Nat) : (s.rsetField r lo w x).fixed = s.fixed := by simp [State.rsetField]
@[simp] theorem State.rcount_fixed (s : State) (r : RName) : (s.rcount r).fixed = s.fixed := by simp [State.rcount]

/-! ### Machine/Ops -/

@[simp] theorem State.setThr_fixed (s : State) (t : Tid) (th : Thread) : (s.setThr t th).fixed = s.fixed := by simp [State.setThr]
@[simp] theorem State.modThr_fixed (s : State) (t : Tid) (f : Thread → Thread) : (s.modThr t f).fixed = s.fixed := by simp [State.modThr]
@[simp] theorem State.setTile_fixed (s : State) (n : Nat) (x : Tile) : (s.setTile n x).fixed = s.fixed := by simp [State.setTile]
@[simp] theorem State.freeWord_fixed (s : State) : (s.freeWord).1.fixed = s.fixed := by simp [State.freeWord]
@[simp] theorem State.setGranule_fixed (s : State) (g : Nat) (x : Granule) : (s.setGranule g x).fixed = s.fixed := by simp [State.setGranule]
@[simp] theorem State.applyWrite_fixed (s : State) (w : GWrite) : (s.applyWrite w).fixed = s.fixed := by simp [State.applyWrite]

/-! ### Machine/Events -/

@[simp] theorem State.raiseMsix_fixed (s : State) (v : Nat) : (s.raiseMsix v).fixed = s.fixed := by simp [State.raiseMsix]
@[simp] theorem sendPending_fixed (s : State) (l : List Nat) : (sendPending s l).fixed = s.fixed := by
  induction l generalizing s with
  | nil => rfl
  | cons x r ih => simp [sendPending, ih]
@[simp] theorem State.event_fixed (s : State) (code cls inst : Nat) (items : List (Nat × Nat)) : (s.event code cls inst items).fixed = s.fixed := by
  unfold State.event; split <;> simp
@[simp] theorem State.reservedEvent_fixed (s : State) (m : Master) (a : Nat) : (s.reservedEvent m a).fixed = s.fixed := by simp [State.reservedEvent]
@[simp] theorem State.setPower_fixed (s : State) (d : Nat) (p : Power) : (s.setPower d p).fixed = s.fixed := by simp [State.setPower]
@[simp] theorem State.active_fixed (s : State) (d a2 a3 : Nat) : (s.active d a2 a3).fixed = s.fixed := by simp [State.active]
@[simp] theorem State.cryptoRecord_fixed (s : State) (slot n : Nat) : (s.cryptoRecord slot n).fixed = s.fixed := by simp [State.cryptoRecord]
@[simp] theorem State.wakeGated_fixed (s : State) (n : Nat) : (s.wakeGated n).fixed = s.fixed := by simp [State.wakeGated]
@[simp] theorem State.raiseVector_fixed (s : State) (n v : Nat) : (s.raiseVector n v).fixed = s.fixed := by simp [State.raiseVector]
@[simp] theorem State.raiseVecReg_fixed (s : State) (r : RName) : (s.raiseVecReg r).fixed = s.fixed := by simp [State.raiseVecReg]
@[simp] theorem State.makeReady_fixed (s : State) (t : Tid) : (s.makeReady t).fixed = s.fixed := by simp [State.makeReady]
@[simp] theorem State.boundary_fixed (s : State) (t : Tid) : (s.boundary t).fixed = s.fixed := by simp [State.boundary]
@[simp] theorem State.complete_fixed (s : State) (t : Tid) : (s.complete t).fixed = s.fixed := by simp [State.complete]
@[simp] theorem State.setPhase_fixed (s : State) (p : Nat) : (s.setPhase p).fixed = s.fixed := by simp [State.setPhase]

/-! ### Machine/Chain -/

@[simp] theorem State.modLink_fixed (s : State) (l : Link) (f : LinkState → LinkState) : (s.modLink l f).fixed = s.fixed := by simp [State.modLink]
@[simp] theorem State.pumpLink_fixed (s : State) (l : Link) : (s.pumpLink l).fixed = s.fixed := by simp [State.pumpLink]
@[simp] theorem State.queueFlits_fixed (s : State) (l : Link) (o : Output) : (s.queueFlits l o).fixed = s.fixed := by simp [State.queueFlits]
@[simp] theorem State.linkOut_fixed (s : State) (l : Link) (o : Output) : (s.linkOut l o).fixed = s.fixed := by simp [State.linkOut]
@[simp] theorem State.chainOut_fixed (s : State) (u : UnitAddr) (o : Output) : (s.chainOut u o).fixed = s.fixed := by
  unfold State.chainOut; split <;> simp
@[simp] theorem State.setNeighbour_fixed (s : State) (k : Nat) (u : Option UnitAddr) : (s.setNeighbour k u).fixed = s.fixed := by
  unfold State.setNeighbour; split <;> simp
@[simp] theorem State.setReach_fixed (s : State) (u : UnitAddr) (b : Bool) : (s.setReach u b).fixed = s.fixed := by simp [State.setReach]

/-! ### Machine/PlateOps -/

@[simp] theorem State.chargePlate_fixed (s : State) (t : Tid) (committed : Bool) (len : Nat) : (s.chargePlate t committed len).fixed = s.fixed := by
  simp [State.chargePlate]
@[simp] theorem unparkUnit_fixed (s : State) (n : Nat) (why : ParkWhy) : (unparkUnit s n why).fixed = s.fixed := by simp [unparkUnit]
@[simp] theorem State.freeDivider_fixed (s : State) (n : Nat) : (s.freeDivider n).fixed = s.fixed := by simp [State.freeDivider]
@[simp] theorem State.freeMoneyDivider_fixed (s : State) (n : Nat) : (s.freeMoneyDivider n).fixed = s.fixed := by simp [State.freeMoneyDivider]
@[simp] theorem State.freeUnits_fixed (s : State) (n : Nat) (outs : List Out) : (s.freeUnits n outs).fixed = s.fixed := by simp [State.freeUnits]
@[simp] theorem dropSends_fixed (s : State) (t : Tid) : (dropSends s t).fixed = s.fixed := by simp [dropSends]
@[simp] theorem State.abortPlate_fixed (s : State) (t : Tid) (a : AbortInfo) : (s.abortPlate t a).fixed = s.fixed := by simp [State.abortPlate]
@[simp] theorem State.abortAll_fixed (s : State) (a : AbortInfo) (l : List Tid) : (s.abortAll a l).fixed = s.fixed := by
  induction l generalizing s with
  | nil => rfl
  | cons x r ih => simp [State.abortAll, ih]
@[simp] theorem State.touchLine_fixed (s : State) (t : Tid) (line : Nat) : (s.touchLine t line).1.fixed = s.fixed := by
  grind [State.touchLine, State.fixed]
@[simp] theorem touchLines_fixed (s : State) (t : Tid) (l : List Nat) : (touchLines s t l).1.fixed = s.fixed := by
  induction l generalizing s with
  | nil => rfl
  | cons x r ih => simp [touchLines, ih]
@[simp] theorem State.conflict_fixed (s : State) (t : Option Tid) (line : Nat) (write : Bool) : (s.conflict t line write).fixed = s.fixed := by
  simp [State.conflict]

/-! ### Machine/PortWait -/

@[simp] theorem State.setPort_fixed (s : State) (n : Nat) (p : Port) : (s.setPort n p).fixed = s.fixed := by simp [State.setPort]
@[simp] theorem State.modPort_fixed (s : State) (n : Nat) (f : Port → Port) : (s.modPort n f).fixed = s.fixed := by simp [State.modPort]
@[simp] theorem State.claimPort_fixed (s : State) (t : Tid) (n : Nat) : (s.claimPort t n).fixed = s.fixed := by simp [State.claimPort]
@[simp] theorem State.offerPort_fixed (s : State) (n : Nat) : (s.offerPort n).fixed = s.fixed := by
  grind [State.offerPort, State.claimPort_fixed, State.complete_fixed, State.modThr_fixed]
@[simp] theorem State.offerPorts_fixed (s : State) (l : List Nat) : (s.offerPorts l).fixed = s.fixed := by
  induction l generalizing s with
  | nil => rfl
  | cons x r ih => simp [State.offerPorts, ih]
@[simp] theorem endClaims_fixed (s : State) (t : Tid) : (endClaims s t).fixed = s.fixed := by simp [endClaims]

/-! ### Machine/Gates -/

@[simp] theorem State.gateGranule_fixed (s : State) (m : Master) (g a : Nat) (rd wr : Bool) (colours : Option (BitVec 4 × BitVec 4)) :
    (s.gateGranule m g a rd wr colours).1.fixed = s.fixed := by
  simp only [State.gateGranule]; split <;> simp
@[simp] theorem State.gateAccess_fixed (s : State) (m : Master) (a : Nat) (rd wr : Bool) (colours : Option (BitVec 4 × BitVec 4)) :
    (s.gateAccess m a rd wr colours).1.fixed = s.fixed := by
  unfold State.gateAccess; split <;> simp
@[simp] theorem State.keepGateTable_fixed (s : State) (g : Nat) : (s.keepGateTable g).fixed = s.fixed := by simp [State.keepGateTable]

/-! ### Machine/DevRead -/

@[simp] theorem State.verdict_fixed (s : State) (m : Master) (a : Nat) (rd wr : Bool) (colours : Option (BitVec 4 × BitVec 4)) :
    (s.verdict m a rd wr colours).1.fixed = s.fixed := by
  grind [State.verdict, State.gateAccess_fixed, State.event_fixed]
@[simp] theorem State.takeSnapshot_fixed (s : State) : (s.takeSnapshot).fixed = s.fixed := by simp [State.takeSnapshot]
@[simp] theorem State.stepCursor_fixed (s : State) : (s.stepCursor).fixed = s.fixed := by simp [State.stepCursor]
@[simp] theorem State.portWord_fixed (s : State) (a : Nat) : (s.portWord a).1.fixed = s.fixed := by simp [State.portWord]
@[simp] theorem State.portRead_fixed (s : State) (a n : Nat) : (s.portRead a n).1.fixed = s.fixed := by simp [State.portRead]
@[simp] theorem State.devRead_fixed (s : State) (m : Master) (a n : Nat) : (s.devRead m a n).1.fixed = s.fixed := by
  grind [State.devRead, State.portRead_fixed, State.stepCursor_fixed, State.reservedEvent_fixed]

/-! ### Machine/Bus -/

@[simp] theorem State.startRepair_fixed (s : State) (line : Nat) : (s.startRepair line).fixed = s.fixed := by simp [State.startRepair]
@[simp] theorem State.foundErrorAs_fixed (s : State) (m : Master) (line : Nat) (device : Bool) : (s.foundErrorAs m line device).fixed = s.fixed := by
  simp [State.foundErrorAs]
@[simp] theorem State.foundError_fixed (s : State) (m : Master) (line : Nat) : (s.foundError m line).fixed = s.fixed := by simp [State.foundError]
@[simp] theorem State.mediaRead_fixed (s : State) (line : Nat) : (s.mediaRead line).fixed = s.fixed := by grind [State.mediaRead, State.event_fixed]
@[simp] theorem State.busGates_fixed (s : State) (m : Master) (a : Nat) (rd wr : Bool) : (s.busGates m a rd wr).1.fixed = s.fixed := by
  grind [State.busGates, State.verdict_fixed, State.gateGranule_fixed]
@[simp] theorem State.busReadSeg_fixed (s : State) (m : Master) (legal : Bool) (a n : Nat) : (s.busReadSeg m legal a n).1.fixed = s.fixed := by
  grind [State.busReadSeg, State.conflict_fixed, State.busGates_fixed, State.devRead_fixed, State.mediaRead_fixed, State.foundError_fixed]
@[simp] theorem busReadSegs_fixed (s : State) (m : Master) (legal : Bool) (l : List (Nat × Nat)) : (busReadSegs s m legal l).1.fixed = s.fixed := by
  induction l generalizing s with
  | nil => rfl
  | cons x r ih => simp [busReadSegs, ih]
@[simp] theorem State.postWrite_fixed (s : State) (m : Master) (legal : Bool) (a : Nat) (d : List Byte) : (s.postWrite m legal a d).fixed = s.fixed := by
  unfold State.postWrite; split <;> simp
@[simp] theorem State.busWriteSeg_fixed (s : State) (m : Master) (legal : Bool) (a : Nat) (d : List Byte) :
    (s.busWriteSeg m legal a d).1.fixed = s.fixed := by
  grind [State.busWriteSeg, State.conflict_fixed, State.busGates_fixed, State.applyWrite_fixed, State.mediaRead_fixed, State.foundError_fixed,
      State.postWrite_fixed]
@[simp] theorem busWriteSegs_fixed (s : State) (m : Master) (legal : Bool) (l : List (Nat × List Byte)) : (busWriteSegs s m legal l).1.fixed = s.fixed := by
  induction l generalizing s with
  | nil => rfl
  | cons x r ih => simp [busWriteSegs, ih]
@[simp] theorem State.busRead_fixed (s : State) (m : Master) (a n : Nat) : (s.busRead m a n).1.fixed = s.fixed := by
  simp only [State.busRead]; split <;> simp
@[simp] theorem State.busWrite_fixed (s : State) (m : Master) (a : Nat) (d : List Byte) : (s.busWrite m a d).1.fixed = s.fixed := by
  grind [State.busWrite, busWriteSegs_fixed, State.event_fixed]

/-! ### Machine/Translate -/

@[simp] theorem State.addCluster_fixed (s : State) (n : Nat) (x : TlbEntry) : (s.addCluster n x).fixed = s.fixed := by simp [State.addCluster]
@[simp] theorem State.addTile_fixed (s : State) (n : Nat) (x : TlbEntry) : (s.addTile n x).fixed = s.fixed := by simp [State.addTile]
@[simp] theorem discardBad_fixed (s : State) (t : Tid) (cluster : Nat) (hit : TlbEntry → Bool) (x1 : Nat) (l2 : List TlbEntry) :
    (discardBad s t cluster hit x1 l2).1.fixed = s.fixed := by
  induction l2 generalizing s x1 with
  | nil => rfl
  | cons x r ih => simp only [discardBad]; split <;> simp [ih]
@[simp] theorem State.scrub_fixed (s : State) (t : Tid) (hit : TlbEntry → Bool) : (s.scrub t hit).fixed = s.fixed := by simp [State.scrub]
@[simp] theorem walkFrom_fixed (s : State) (t : Tid) (w : World) (asid : BitVec 12) (va : Nat) (spec : Bool) (x1 : Nat) (x2 : Nat) (x3 : Nat) :
    (walkFrom s t w asid va spec x1 x2 x3).1.fixed = s.fixed := by
  induction x1 generalizing s x2 x3 with
  | zero => rfl
  | succ k ih => grind [walkFrom, State.addCluster_fixed, touchLines_fixed, State.startRepair_fixed, State.mediaRead_fixed, State.foundError_fixed,
        State.gateAccess_fixed, State.event_fixed]
@[simp] theorem State.lookup_fixed (s : State) (t : Tid) (w : World) (troot : Word) (va : Nat) (spec : Bool) :
    (s.lookup t w troot va spec).1.fixed = s.fixed := by
  grind [State.lookup, State.modThr_fixed, State.scrub_fixed, walkFrom_fixed]
@[simp] theorem State.fillTlb_fixed (s : State) (n : Nat) (x : TlbEntry) (x1 : Found) : (s.fillTlb n x x1).fixed = s.fixed := by
  unfold State.fillTlb; split <;> simp
@[simp] theorem State.translateAs_fixed (s : State) (t : Tid) (w : World) (l : Level) (va : Nat) (q : Want) (spec : Bool) :
    (s.translateAs t w l va q spec).1.fixed = s.fixed := by
  grind [State.translateAs, State.fillTlb_fixed, State.lookup_fixed]

/-! ### Machine/Dma -/

@[simp] theorem dmaWalk_fixed (s : State) (w : World) (va : Nat) (x1 : Nat) (x2 : Nat) (x3 : Nat) : (dmaWalk s w va x1 x2 x3).1.fixed = s.fixed := by
  induction x1 generalizing s x2 x3 with
  | zero => rfl
  | succ k ih => grind [dmaWalk, State.mediaRead_fixed, State.foundError_fixed, State.gateAccess_fixed]
@[simp] theorem dmaTranslate_fixed (s : State) (w : World) (troot : Word) (va : Nat) (q : Want) : (dmaTranslate s w troot va q).1.fixed = s.fixed := by
  grind [dmaTranslate, dmaWalk_fixed]
@[simp] theorem State.dmaGranule_fixed (s : State) (colour : BitVec 4) (a : Nat) (wr : Bool) : (s.dmaGranule colour a wr).1.fixed = s.fixed := by
  grind [State.dmaGranule, State.verdict_fixed, State.mediaRead_fixed, State.foundError_fixed, State.event_fixed, State.fixed]
@[simp] theorem dmaPart_fixed (s : State) (p : Port) (c : Cap) (va : Nat) (q : Want) : (dmaPart s p c va q).1.fixed = s.fixed := by
  grind [dmaPart, dmaTranslate_fixed, State.dmaGranule_fixed]
@[simp] theorem dmaParts_fixed (s : State) (p : Port) (c : Cap) (q : Want) (first : Nat) (l : List (Nat × Nat)) :
    (dmaParts s p c q first l).1.fixed = s.fixed := by
  induction l generalizing s with
  | nil => rfl
  | cons x r ih => grind [dmaParts, dmaPart_fixed]
@[simp] theorem State.dmaCheck_fixed (s : State) (p : Port) (c : Cap) (a n : Nat) (wr : Bool) : (s.dmaCheck p c a n wr).1.fixed = s.fixed := by
  grind [State.dmaCheck, dmaParts_fixed]
@[simp] theorem dmaRead_fixed (s : State) (l : List (Nat × Nat)) : (dmaRead s l).1.fixed = s.fixed := by
  induction l generalizing s with
  | nil => rfl
  | cons x r ih => simp only [dmaRead]; split <;> simp [ih]
@[simp] theorem dmaWrite_fixed (s : State) (l : List (Nat × List Byte)) : (dmaWrite s l).fixed = s.fixed := by
  induction l generalizing s with
  | nil => rfl
  | cons x r ih => simp [dmaWrite, ih]

/-! ### Machine/PortOps -/

@[simp] theorem State.countSent_fixed (s : State) (m octets : Nat) : (s.countSent m octets).fixed = s.fixed := by simp [State.countSent]
@[simp] theorem State.sendSegment_fixed (s : State) (n : Nat) (g : Segment) : (s.sendSegment n g).fixed = s.fixed := by simp [State.sendSegment]
@[simp] theorem State.sendAck_fixed (s : State) (n : Nat) : (s.sendAck n).fixed = s.fixed := by simp [State.sendAck]
@[simp] theorem State.windowUpdate_fixed (s : State) (n : Nat) : (s.windowUpdate n).fixed = s.fixed := by simp [State.windowUpdate]
@[simp] theorem State.sendRst_fixed (s : State) (n : Nat) : (s.sendRst n).fixed = s.fixed := by simp [State.sendRst]
@[simp] theorem State.failPort_fixed (s : State) (n : Nat) (rst : Bool) : (s.failPort n rst).fixed = s.fixed := by simp [State.failPort]
@[simp] theorem State.descriptorError_fixed (s : State) (n cause addr : Nat) : (s.descriptorError n cause addr).fixed = s.fixed := by
  simp [State.descriptorError]
@[simp] theorem State.freePort_fixed (s : State) (n : Nat) : (s.freePort n).fixed = s.fixed := by simp [State.freePort]
@[simp] theorem State.bothFins_fixed (s : State) (n : Nat) : (s.bothFins n).fixed = s.fixed := by simp [State.bothFins]
@[simp] theorem sealRecord_fixed (s : State) (slot : Nat) (ct : Byte) (data : List Byte) : (sealRecord s slot ct data).1.fixed = s.fixed := by
  simp [sealRecord]
@[simp] theorem sealAll_fixed (s : State) (slot : Nat) (x1 : Nat) (l2 : List Byte) : (sealAll s slot x1 l2).1.fixed = s.fixed := by
  induction x1 generalizing s l2 with
  | zero => rfl
  | succ k ih => grind [sealAll, sealRecord_fixed]
@[simp] theorem wireBytes_fixed (s : State) (p : Port) (d : List Byte) : (wireBytes s p d).1.fixed = s.fixed := by
  simp only [wireBytes]
  split
  · rfl
  · split
    · split <;> simp
    · split <;> simp
@[simp] theorem takeEntries_fixed (s : State) (n : Nat) (x1 : Nat) : (takeEntries s n x1).fixed = s.fixed := by
  induction x1 generalizing s with
  | zero => rfl
  | succ k ih => grind [takeEntries, State.modPort_fixed, wireBytes_fixed, dmaRead_fixed, State.descriptorError_fixed, State.dmaCheck_fixed]
@[simp] theorem sendNew_fixed (s : State) (n : Nat) (x1 : Nat) : (sendNew s n x1).fixed = s.fixed := by
  induction x1 generalizing s with
  | zero => rfl
  | succ k ih => simp [sendNew, ih]
@[simp] theorem State.sendFin_fixed (s : State) (n : Nat) : (s.sendFin n).fixed = s.fixed := by
  grind [State.sendFin, State.modPort_fixed, sealRecord_fixed, State.bothFins_fixed, State.sendSegment_fixed]
@[simp] theorem State.resend_fixed (s : State) (n : Nat) : (s.resend n).fixed = s.fixed := by
  grind [State.resend, State.modPort_fixed, State.descriptorError_fixed, State.sendSegment_fixed, State.dmaCheck_fixed]
@[simp] theorem State.retryResend_fixed (s : State) (n : Nat) : (s.retryResend n).fixed = s.fixed := by simp [State.retryResend]
@[simp] theorem State.pumpPort_fixed (s : State) (n : Nat) : (s.pumpPort n).fixed = s.fixed := by simp [State.pumpPort]
@[simp] theorem pumpAll_fixed (s : State) (l : List Nat) : (pumpAll s l).fixed = s.fixed := by
  induction l generalizing s with
  | nil => rfl
  | cons x r ih => simp [pumpAll, ih]
@[simp] theorem State.releaseSends_fixed (s : State) : (s.releaseSends).fixed = s.fixed := by simp [State.releaseSends]

/-! ### Machine/Journal -/

@[simp] theorem State.setEmode_fixed (s : State) (m : Nat) : (s.setEmode m).fixed = s.fixed := by simp [State.setEmode]
@[simp] theorem State.setEtchBit_fixed (s : State) (k : Nat) (b : Bool) : (s.setEtchBit k b).fixed = s.fixed := by simp [State.setEtchBit]
@[simp] theorem State.setTail_fixed (s : State) : (s.setTail).fixed = s.fixed := by simp [State.setTail]
@[simp] theorem mendRing_fixed (s : State) (l : List (Nat × Nat × Nat)) : (mendRing s l).fixed = s.fixed := by
  induction l generalizing s with
  | nil => rfl
  | cons x r ih => simp [mendRing, ih]
@[simp] theorem tailDenied_fixed (s : State) (l : List (Nat × Nat)) : (tailDenied s l).1.fixed = s.fixed := by
  induction l generalizing s with
  | nil => rfl
  | cons x r ih => grind [tailDenied, State.gateAccess_fixed]
@[simp] theorem State.issueRing_fixed (s : State) (upto : Nat) : (s.issueRing upto).fixed = s.fixed := by
  grind [State.issueRing, mendRing_fixed, tailDenied_fixed, State.fixed]
@[simp] theorem State.kickDrain_fixed (s : State) : (s.kickDrain).fixed = s.fixed := by simp [State.kickDrain]
@[simp] theorem State.fenceStop_fixed (s : State) : (s.fenceStop).fixed = s.fixed := by simp [State.fenceStop]
@[simp] theorem publishWrites_fixed (s : State) (l : List (Nat × Granule)) : (publishWrites s l).fixed = s.fixed := by
  induction l generalizing s with
  | nil => rfl
  | cons x r ih => simp [publishWrites, ih]
@[simp] theorem publishConsumed_fixed (s : State) (l : List (Nat × Nat)) : (publishConsumed s l).fixed = s.fixed := by
  induction l generalizing s with
  | nil => rfl
  | cons x r ih => simp [publishConsumed, ih]
@[simp] theorem State.wakeHeld_fixed (s : State) : (s.wakeHeld).fixed = s.fixed := by simp [State.wakeHeld]
@[simp] theorem ownSends_fixed (s : State) (t : Tid) (csn : Nat) : (ownSends s t csn).fixed = s.fixed := by simp [ownSends]
@[simp] theorem State.publish_fixed (s : State) (t : Tid) : (s.publish t).fixed = s.fixed := by simp [State.publish]
@[simp] theorem publishCursors_fixed (s : State) (l : List (Nat × Quad)) : (publishCursors s l).fixed = s.fixed := by
  induction l generalizing s with
  | nil => rfl
  | cons x r ih => simp [publishCursors, ih]
@[simp] theorem durableRun_fixed (s : State) (l : List JRec) : (durableRun s l).fixed = s.fixed := by
  induction l generalizing s with
  | nil => rfl
  | cons x r ih => grind [durableRun, State.wakeHeld_fixed, publishWrites_fixed, publishCursors_fixed, State.rset_fixed, State.publish_fixed, State.fixed]
@[simp] theorem State.advance_fixed (s : State) : (s.advance).fixed = s.fixed := by unfold State.advance; split <;> simp
@[simp] theorem State.nvmeSafe_fixed (s : State) : (s.nvmeSafe).fixed = s.fixed := by simp [State.nvmeSafe]
@[simp] theorem State.fallback_fixed (s : State) : (s.fallback).fixed = s.fixed := by simp [State.fallback]
@[simp] theorem State.endFallback_fixed (s : State) : (s.endFallback).fixed = s.fixed := by simp [State.endFallback]
@[simp] theorem State.markDirty_fixed (s : State) (a : Nat) : (s.markDirty a).fixed = s.fixed := by simp [State.markDirty]
@[simp] theorem dirtyGranules_fixed (s : State) (l : List Nat) : (dirtyGranules s l).fixed = s.fixed := by
  induction l generalizing s with
  | nil => rfl
  | cons x r ih => simp [dirtyGranules, ih]
@[simp] theorem State.append_fixed (s : State) (r : JRec) (data : List Byte) : (s.append r data).fixed = s.fixed := by
  simp only [State.append]; split <;> simp
@[simp] theorem placeSends_fixed (s : State) (t : Tid) : (placeSends s t).fixed = s.fixed := by simp [placeSends]
@[simp] theorem State.commitPoint_fixed (s : State) (t : Tid) : (s.commitPoint t).fixed = s.fixed := by simp [State.commitPoint]
@[simp] theorem State.requestOwn_fixed (s : State) (w : Committer) : (s.requestOwn w).fixed = s.fixed := by simp [State.requestOwn]
@[simp] theorem State.commitInternal_fixed (s : State) (ho : Bool) (writes : List (Nat × Granule)) (cursors : List (Nat × Quad)) :
    (s.commitInternal ho writes cursors).fixed = s.fixed := by
  simp [State.commitInternal]

/-! ### Machine/RawRings -/

@[simp] theorem State.setRawStopped_fixed (s : State) (tx : Bool) (m : Nat) (b : Bool) : (s.setRawStopped tx m b).fixed = s.fixed := by
  simp [State.setRawStopped]
@[simp] theorem rawCheck_fixed (s : State) (colour : BitVec 4) (wr : Bool) (l : List (Nat × Nat)) : (rawCheck s colour wr l).1.fixed = s.fixed := by
  induction l generalizing s with
  | nil => rfl
  | cons x r ih => grind [rawCheck, State.dmaGranule_fixed]
@[simp] theorem State.rawHeadDesc_fixed (s : State) (tx : Bool) (m : Nat) : (s.rawHeadDesc tx m).1.fixed = s.fixed := by
  grind [State.rawHeadDesc, State.busRead_fixed]
@[simp] theorem State.rawComplete_fixed (s : State) (tx : Bool) (m : Nat) (d : RawDesc) (len : Nat) (vlan : Option (BitVec 12)) (status : Nat) :
    (s.rawComplete tx m d len vlan status).fixed = s.fixed := by
  simp [State.rawComplete]
@[simp] theorem rawSend_fixed (s : State) (m : Nat) (x1 : Nat) : (rawSend s m x1).fixed = s.fixed := by
  induction x1 generalizing s with
  | zero => rfl
  | succ k ih => grind [rawSend, dmaRead_fixed, State.rawComplete_fixed, rawCheck_fixed, State.countSent_fixed, State.rawHeadDesc_fixed,
        State.setRawStopped_fixed, State.fixed]
@[simp] theorem State.writeRawTail_fixed (s : State) (tx : Bool) (m : Nat) (v : Word) : (s.writeRawTail tx m v).fixed = s.fixed := by
  simp [State.writeRawTail]
theorem State.rawTry_fixed (s : State) (m : Nat) (vlan : Option (BitVec 12)) (data : List Byte) (u : State) :
    s.rawTry m vlan data = some u → u.fixed = s.fixed := by
  grind [State.rawTry, State.rawComplete_fixed, State.raiseVecReg_fixed, rawCheck_fixed, State.rawHeadDesc_fixed, State.setRawStopped_fixed,
      State.rcount_fixed, dmaWrite_fixed]
@[simp] theorem State.rawReceive_fixed (s : State) (m : Nat) (vlan : Option (BitVec 12)) (data : List Byte) : (s.rawReceive m vlan data).fixed = s.fixed := by
  simp only [State.rawReceive]
  split
  · simp
  · exact fixed_getD (State.rawTry_fixed s m vlan data) (by simp)
@[simp] theorem retryRaw_fixed (s : State) (blocked : List Nat) (l : List RawWait) : (retryRaw s blocked l).fixed = s.fixed := by
  induction l generalizing s blocked with
  | nil => rfl
  | cons w r ih => grind [retryRaw, State.rawTry_fixed, State.fixed]
@[simp] theorem State.kickRaw_fixed (s : State) : (s.kickRaw).fixed = s.fixed := by simp [State.kickRaw]

/-! ### Machine/Bellows -/

@[simp] theorem State.setBwStat_fixed (s : State) (k : Nat) : (s.setBwStat k).fixed = s.fixed := by simp [State.setBwStat]
@[simp] theorem State.wakeDomain_fixed (s : State) (d : Nat) : (s.wakeDomain d).fixed = s.fixed := by unfold State.wakeDomain; split <;> simp
@[simp] theorem State.retireTile_fixed (s : State) (n : Nat) : (s.retireTile n).fixed = s.fixed := by simp [State.retireTile]
@[simp] theorem State.followPlan_fixed (s : State) : (s.followPlan).fixed = s.fixed := by simp [State.followPlan]
@[simp] theorem State.autoDomain_fixed (s : State) (d : Nat) : (s.autoDomain d).fixed = s.fixed := by simp [State.autoDomain]
@[simp] theorem State.autoDomains_fixed (s : State) : (s.autoDomains).fixed = s.fixed := by simp [State.autoDomains]
@[simp] theorem loseJournal_fixed (s : State) (g : Nat) (x1 : Nat) : (loseJournal s g x1).fixed = s.fixed := by
  induction x1 generalizing s g with
  | zero => rfl
  | succ n ih => simp [loseJournal, ih]
@[simp] theorem State.writeDomctl_fixed (s : State) (d : Nat) (v : Word) : (s.writeDomctl d v).fixed = s.fixed := by simp [State.writeDomctl]
@[simp] theorem State.changeStep_fixed (s : State) (step : Nat) : (s.changeStep step).fixed = s.fixed := by simp [State.changeStep]
@[simp] theorem State.applyPlan_fixed (s : State) (step parked : Nat) (tiles : Word) (emerg : Bool) :
    (s.applyPlan step parked tiles emerg).fixed = s.fixed := by
  simp [State.applyPlan]
@[simp] theorem State.duePlan_fixed (s : State) : (s.duePlan).fixed = s.fixed := by
  grind [State.duePlan, State.changeStep_fixed, State.setBwStat_fixed, State.applyPlan_fixed, State.event_fixed, State.fixed]
@[simp] theorem chargeShare_fixed (s : State) (t : Tid) (share : Int) : (chargeShare s t share).1.fixed = s.fixed := by
  simp only [chargeShare]; split <;> simp
@[simp] theorem chargeTile_fixed (s : State) (e : Int) (total : Nat) (l : List (Nat × Nat)) : (chargeTile s e total l).fixed = s.fixed := by
  induction l generalizing s with
  | nil => rfl
  | cons x r ih => simp [chargeTile, ih]
@[simp] theorem chargeAll_fixed (s : State) (l : List Activity) : (chargeAll s l).fixed = s.fixed := by
  induction l generalizing s with
  | nil => rfl
  | cons x r ih => simp [chargeAll, ih]
@[simp] theorem State.nextTick_fixed (s : State) : (s.nextTick).fixed = s.fixed := by simp [State.nextTick]
@[simp] theorem State.refillPurses_fixed (s : State) : (s.refillPurses).fixed = s.fixed := by simp [State.refillPurses]
@[simp] theorem State.refillBucket_fixed (s : State) (e : Int) : (s.refillBucket e).fixed = s.fixed := by simp [State.refillBucket]
@[simp] theorem State.readSensor_fixed (s : State) (k : Nat) (t : Int) : (s.readSensor k t).fixed = s.fixed := by simp [State.readSensor]
@[simp] theorem readSensors_fixed (s : State) (l : List (Nat × Int)) : (readSensors s l).fixed = s.fixed := by
  induction l generalizing s with
  | nil => rfl
  | cons x r ih => simp [readSensors, ih]
@[simp] theorem State.reportSram_fixed (s : State) : (s.reportSram).fixed = s.fixed := by simp [State.reportSram]
@[simp] theorem State.ledgerTick_fixed (s : State) (a : TickInput) : (s.ledgerTick a).fixed = s.fixed := by simp [State.ledgerTick]
@[simp] theorem State.liftCap_fixed (s : State) : (s.liftCap).fixed = s.fixed := by simp [State.liftCap]
@[simp] theorem State.formPlan_fixed (s : State) (tpp : List Nat) : (s.formPlan tpp).fixed = s.fixed := by
  grind [State.formPlan, State.setBwStat_fixed, State.event_fixed, State.fixed]
@[simp] theorem State.pmbusFault_fixed (s : State) (command : Nat) : (s.pmbusFault command).fixed = s.fixed := by simp [State.pmbusFault]
@[simp] theorem State.correct_fixed (s : State) (pin : BitVec 16) : (s.correct pin).fixed = s.fixed := by simp [State.correct]
@[simp] theorem State.pmbus_fixed (s : State) (r : PmbusReading) : (s.pmbus r).fixed = s.fixed := by cases r <;> simp [State.pmbus]
@[simp] theorem State.settled_fixed (s : State) : (s.settled).fixed = s.fixed := by unfold State.settled; split <;> simp
@[simp] theorem State.gateClock_fixed (s : State) (n : Nat) : (s.gateClock n).fixed = s.fixed := by simp [State.gateClock]
@[simp] theorem State.tileOff_fixed (s : State) (n : Nat) : (s.tileOff n).fixed = s.fixed := by simp [State.tileOff]
@[simp] theorem State.cryptoIdle_fixed (s : State) (k : Nat) : (s.cryptoIdle k).fixed = s.fixed := by simp [State.cryptoIdle]
@[simp] theorem State.woken_fixed (s : State) (d : Nat) : (s.woken d).fixed = s.fixed := by simp [State.woken]

/-! ### Machine/Etcher -/

@[simp] theorem State.setTarget_fixed (s : State) (u : Option UnitAddr) : (s.setTarget u).fixed = s.fixed := by unfold State.setTarget; split <;> simp
@[simp] theorem State.chooseMirror_fixed (s : State) : (s.chooseMirror).fixed = s.fixed := by
  grind [State.chooseMirror, State.fallback_fixed, State.setTarget_fixed, State.endFallback_fixed]
@[simp] theorem firstDenied_fixed (s : State) (l : List Nat) : (firstDenied s l).1.fixed = s.fixed := by
  induction l generalizing s with
  | nil => rfl
  | cons x r ih => grind [firstDenied, State.gateAccess_fixed]
@[simp] theorem gateRun_fixed (s : State) (m : Master) (rd wr : Bool) (g : Nat) (x1 : Nat) : (gateRun s m rd wr g x1).1.fixed = s.fixed := by
  induction x1 generalizing s g with
  | zero => rfl
  | succ n ih => grind [gateRun, State.gateAccess_fixed]
@[simp] theorem gatePoints_fixed (s : State) (m : Master) (rd wr : Bool) (hi : Nat) (l : List Nat) : (gatePoints s m rd wr hi l).1.fixed = s.fixed := by
  induction l generalizing s with
  | nil => rfl
  | cons x r ih => simp only [gatePoints]; split <;> simp [ih]
@[simp] theorem State.gateRange_fixed (s : State) (m : Master) (lo n : Nat) (rd wr : Bool) : (s.gateRange m lo n rd wr).1.fixed = s.fixed := by
  simp [State.gateRange]
@[simp] theorem State.etcherReads_fixed (s : State) (lo n : Nat) : (s.etcherReads lo n).1.fixed = s.fixed := by simp [State.etcherReads]
@[simp] theorem etchData_fixed (s : State) (n : Nat) : (etchData s n).fixed = s.fixed := by simp [etchData]
@[simp] theorem etchTags_fixed (s : State) (b : Nat) : (etchTags s b).fixed = s.fixed := by simp [etchTags]
@[simp] theorem etchCursors_fixed (s : State) : (etchCursors s).fixed = s.fixed := by simp [etchCursors]
@[simp] theorem State.startProof_fixed (s : State) : (s.startProof).fixed = s.fixed := by simp [State.startProof]
@[simp] theorem State.epochBoundary_fixed (s : State) : (s.epochBoundary).fixed = s.fixed := by
  grind [State.epochBoundary, State.startProof_fixed, State.event_fixed, State.fixed]
@[simp] theorem State.proofComplete_fixed (s : State) (p csn j : Nat) : (s.proofComplete p csn j).fixed = s.fixed := by simp [State.proofComplete]
@[simp] theorem State.report_fixed (s : State) : (s.report).fixed = s.fixed := by unfold State.report; split <;> simp
@[simp] theorem State.ringWritten_fixed (s : State) (upto : Nat) : (s.ringWritten upto).fixed = s.fixed := by simp [State.ringWritten]
@[simp] theorem readSegs_fixed (s : State) (l : List (Nat × Nat)) : (readSegs s l).1.fixed = s.fixed := by
  induction l generalizing s with
  | nil => rfl
  | cons x r ih => grind [readSegs, State.gateAccess_fixed]
@[simp] theorem readMirror_fixed (s : State) (pos n : Nat) : (readMirror s pos n).1.fixed = s.fixed := by simp [readMirror]
@[simp] theorem State.writeSpill_fixed (s : State) : (s.writeSpill).fixed = s.fixed := by simp [State.writeSpill]
@[simp] theorem State.driveDone_fixed (s : State) (x1 : NvmeCmd) : (s.driveDone x1).fixed = s.fixed := by unfold State.driveDone; split <;> simp
@[simp] theorem State.driveError_fixed (s : State) (op lba status : Nat) : (s.driveError op lba status).fixed = s.fixed := by simp [State.driveError]
@[simp] theorem State.longFails_fixed (s : State) (ops : Nat × Nat) (status : Nat) : (s.longFails ops status).fixed = s.fixed := by
  simp [State.longFails]
@[simp] theorem State.noDrive_fixed (s : State) (ops : Nat × Nat) : (s.noDrive ops).fixed = s.fixed := by simp [State.noDrive]
@[simp] theorem State.startFormat_fixed (s : State) : (s.startFormat).fixed = s.fixed := by simp [State.startFormat]
@[simp] theorem State.formatted_fixed (s : State) : (s.formatted).fixed = s.fixed := by simp [State.formatted]
@[simp] theorem State.markGranule_fixed (s : State) (g : Nat) : (s.markGranule g).fixed = s.fixed := by simp [State.markGranule]
@[simp] theorem State.applyEntry_fixed (s : State) (i : Into) (x : EntryIn) : (s.applyEntry i x).fixed = s.fixed := by
  grind [State.applyEntry, State.modPort_fixed, State.markGranule_fixed, State.setGranule_fixed]
@[simp] theorem replayRun_fixed (s : State) (m : List Host.Cell) (base size : Nat) (i : Into) (keep : Bool) (x1 : Nat) (x3 : Replay) :
    (replayRun m base size i keep x1 s x3).1.fixed = s.fixed := by
  induction x1 generalizing s x3 with
  | zero => rfl
  | succ n ih =>
    simp only [replayRun]
    split
    · rfl
    · split
      · rfl
      · rw [ih]; split <;> simp
@[simp] theorem loadImage_fixed (s : State) (d : Drive) (img at_ size : Nat) : (loadImage s d img at_ size).fixed = s.fixed := by simp [loadImage]
@[simp] theorem loadCursors_fixed (s : State) (d : Drive) (lo : Nat) : (loadCursors s d lo).fixed = s.fixed := by simp [loadCursors]
@[simp] theorem State.openFails_fixed (s : State) (reason : Nat) : (s.openFails reason).fixed = s.fixed := by simp [State.openFails]
@[simp] theorem State.startOpen_fixed (s : State) : (s.startOpen).fixed = s.fixed := by
  simp only [State.startOpen]
  split
  · simp
  · split
    · simp
    · split
      · simp
      · split
        · simp
        · split
          case h_1 u h => simp [fixed_of_fst h (firstDenied_fixed _ _)]
          case h_2 u h => split <;> simp [fixed_of_fst h (firstDenied_fixed _ _)]
@[simp] theorem State.tailAnswered_fixed (s : State) (u : UnitAddr) (tail : Option (List Byte)) : (s.tailAnswered u tail).fixed = s.fixed := by
  simp only [State.tailAnswered]
  split
  · rfl
  · split
    · rfl
    · split
      · rfl
      · split
        · split
          case h_1 u h => simp [fixed_of_fst h (firstDenied_fixed _ _)]
          case h_2 u h => simp [fixed_of_fst h (firstDenied_fixed _ _)]
        · split <;> simp
@[simp] theorem State.tailTimeout_fixed (s : State) : (s.tailTimeout).fixed = s.fixed := by unfold State.tailTimeout; split <;> simp
@[simp] theorem clearSrams_fixed (s : State) : (clearSrams s).fixed = s.fixed := by simp [clearSrams]
@[simp] theorem State.journalRuns_fixed (s : State) (r : Replay) : (s.journalRuns r).fixed = s.fixed := by simp [State.journalRuns]
@[simp] theorem State.openFailed_fixed (s : State) (reason : Nat) : (s.openFailed reason).fixed = s.fixed := by simp [State.openFailed]
theorem State.recoveryEnds_fixed (s : State) (u : State) : s.recoveryEnds = some u → u.fixed = s.fixed := by
  grind [State.recoveryEnds, State.openFailed_fixed, State.raiseMsix_fixed, State.journalRuns_fixed]
@[simp] theorem State.etchCommand_fixed (s : State) (v : Word) : (s.etchCommand v).fixed = s.fixed := by simp [State.etchCommand]
@[simp] theorem State.writeEtchCtrl_fixed (s : State) (v : Word) : (s.writeEtchCtrl v).fixed = s.fixed := by simp [State.writeEtchCtrl]
@[simp] theorem State.heldTail_fixed (s : State) (u : UnitAddr) (fmtid : Word) (pos : Nat) : (s.heldTail u fmtid pos).1.fixed = s.fixed := by
  grind [State.heldTail, readMirror_fixed]
@[simp] theorem answerTails_fixed (s : State) (l : List (UnitAddr × Word × Nat)) : (answerTails s l).fixed = s.fixed := by
  induction l generalizing s with
  | nil => rfl
  | cons x r ih => simp [answerTails, ih]
@[simp] theorem State.answerTailRequests_fixed (s : State) : (s.answerTailRequests).fixed = s.fixed := by simp [State.answerTailRequests]
@[simp] theorem State.setMirrorTail_fixed (s : State) : (s.setMirrorTail).fixed = s.fixed := by simp [State.setMirrorTail]
@[simp] theorem mirrorWrite_fixed (s : State) (l : List (Nat × List Byte)) : (mirrorWrite s l).1.fixed = s.fixed := by
  induction l generalizing s with
  | nil => rfl
  | cons x r ih => grind [mirrorWrite, State.gateAccess_fixed, State.fixed]
@[simp] theorem State.mirrorArrives_fixed (s : State) (u : UnitAddr) (jpos : Nat) (d : List Byte) : (s.mirrorArrives u jpos d).fixed = s.fixed := by
  grind [State.mirrorArrives, State.chainOut_fixed, State.active_fixed, mirrorWrite_fixed, State.setMirrorTail_fixed, State.rsetField_fixed, State.fixed]
@[simp] theorem State.drainedArrives_fixed (s : State) (u : UnitAddr) (jpos : Nat) : (s.drainedArrives u jpos).fixed = s.fixed := by
  simp [State.drainedArrives]
@[simp] theorem State.ackArrives_fixed (s : State) (u : UnitAddr) (jpos : Nat) : (s.ackArrives u jpos).fixed = s.fixed := by simp [State.ackArrives]
@[simp] theorem repairDenied_fixed (s : State) (g : Nat) (x1 : Nat) : (repairDenied s g x1).1.fixed = s.fixed := by
  induction x1 generalizing s g with
  | zero => rfl
  | succ n ih => grind [repairDenied, State.gateAccess_fixed]
@[simp] theorem State.repairFails_fixed (s : State) (line reason : Nat) : (s.repairFails line reason).fixed = s.fixed := by simp [State.repairFails]
@[simp] theorem State.repairReadFails_fixed (s : State) (line : Nat) : (s.repairReadFails line).fixed = s.fixed := by simp [State.repairReadFails]
@[simp] theorem State.repairLine_fixed (s : State) (line : Nat) : (s.repairLine line).fixed = s.fixed := by
  simp only [State.repairLine]
  split
  · rfl
  · split
    · simp
    · split
      case h_1 u h => simp [fixed_of_fst h (tailDenied_fixed _ _)]
      case h_2 u h =>
        have hu := fixed_of_fst h (tailDenied_fixed _ _)
        split
        · simp [hu]
        · split
          case h_1 v hv => simp [fixed_of_fst hv (repairDenied_fixed _ _ _), hu]
          case h_2 v hv => simp [fixed_of_fst hv (repairDenied_fixed _ _ _), hu]
@[simp] theorem State.startDrain_fixed (s : State) : (s.startDrain).fixed = s.fixed := by simp [State.startDrain]
@[simp] theorem drainRest_fixed (s : State) (l : List NvmeCmd) : (drainRest s l).fixed = s.fixed := by
  induction l generalizing s with
  | nil => rfl
  | cons x r ih => simp [drainRest, ih]
@[simp] theorem State.drainDone_fixed (s : State) : (s.drainDone).fixed = s.fixed := by simp [State.drainDone]

/-! ### Machine/Sudon -/

@[simp] theorem State.setTakeStat_fixed (s : State) (st reason : Nat) : (s.setTakeStat st reason).fixed = s.fixed := by simp [State.setTakeStat]
@[simp] theorem State.takeFails_fixed (s : State) (reason : Nat) : (s.takeFails reason).fixed = s.fixed := by simp [State.takeFails]
@[simp] theorem State.startTake_fixed (s : State) (u : UnitAddr) : (s.startTake u).fixed = s.fixed := by
  simp only [State.startTake]
  split
  · rfl
  · split
    · simp
    · split
      · simp
      · split <;> simp
@[simp] theorem State.takeFailsFree_fixed (s : State) : (s.takeFailsFree).fixed = s.fixed := by simp [State.takeFailsFree]
@[simp] theorem State.fenceDone_fixed (s : State) (ok : Bool) : (s.fenceDone ok).fixed = s.fixed := by simp [State.fenceDone]
@[simp] theorem loadCursorCopy_fixed (s : State) (l : List (Nat × Quad)) (at_ : Nat) : (loadCursorCopy s l at_).fixed = s.fixed := by
  simp [loadCursorCopy]
@[simp] theorem State.takeLoads_fixed (s : State) : (s.takeLoads).fixed = s.fixed := by
  grind [State.takeLoads, readMirror_fixed, loadCursorCopy_fixed, replayRun_fixed, firstDenied_fixed, loadImage_fixed, State.takeFailsFree_fixed, State.fixed]
@[simp] theorem State.takeDone_fixed (s : State) : (s.takeDone).fixed = s.fixed := by
  simp only [State.takeDone]
  split
  · simp
  · rfl
@[simp] theorem State.takeCommand_fixed (s : State) : (s.takeCommand).fixed = s.fixed := by unfold State.takeCommand; split <;> simp
@[simp] theorem State.setPartState_fixed (s : State) (k st : Nat) : (s.setPartState k st).fixed = s.fixed := by simp [State.setPartState]
@[simp] theorem State.setHoStat_fixed (s : State) (st reason : Nat) (gen : BitVec 16) (port : Nat) : (s.setHoStat st reason gen port).fixed = s.fixed := by
  simp [State.setHoStat]
@[simp] theorem State.hoEvent_fixed (s : State) (reason : Nat) : (s.hoEvent reason).fixed = s.fixed := by simp [State.hoEvent]
@[simp] theorem State.handoverPlate_fixed (s : State) (gen : BitVec 16) (owner : UnitAddr) : (s.handoverPlate gen owner).fixed = s.fixed := by
  simp [State.handoverPlate]
@[simp] theorem State.hoCutOff_fixed (s : State) : (s.hoCutOff).fixed = s.fixed := by simp [State.hoCutOff]
@[simp] theorem State.hoRevert_fixed (s : State) : (s.hoRevert).fixed = s.fixed := by simp [State.hoRevert]
@[simp] theorem State.arrivalCommits_fixed (s : State) (n : Nat) : (s.arrivalCommits n).fixed = s.fixed := by simp [State.arrivalCommits]
@[simp] theorem State.dropOwn_fixed (s : State) (w : Committer) : (s.dropOwn w).fixed = s.fixed := by simp [State.dropOwn]
@[simp] theorem serveOwn_fixed (s : State) (x1 : Nat) : (serveOwn x1 s).fixed = s.fixed := by
  induction x1 generalizing s with
  | zero => rfl
  | succ k ih => grind [serveOwn, State.hoCutOff_fixed, State.arrivalCommits_fixed, State.dropOwn_fixed, State.hoRevert_fixed]
@[simp] theorem State.hoFails_fixed (s : State) (reason : Nat) : (s.hoFails reason).fixed = s.fixed := by simp [State.hoFails]
@[simp] theorem State.hoStart_fixed (s : State) : (s.hoStart).fixed = s.fixed := by simp [State.hoStart]
@[simp] theorem State.hoReserve_fixed (s : State) (r : Reservation) : (s.hoReserve r).fixed = s.fixed := by
  grind [State.hoReserve, State.modPort_fixed, State.chainOut_fixed, State.rset_fixed, State.fixed]
@[simp] theorem State.hoAnswer_fixed (s : State) (partition : Bool) (object : Nat) (gen : BitVec 16) (a : ReserveAnswer) :
    (s.hoAnswer partition object gen a).fixed = s.fixed := by
  cases a <;> simp [State.hoAnswer]
@[simp] theorem State.partGranules_fixed (s : State) (base n : Nat) : (s.partGranules base n).1.fixed = s.fixed := by simp [State.partGranules]
@[simp] theorem readMessages_fixed (s : State) (p : Port) (l : List RxDesc) : (readMessages s p l).1.fixed = s.fixed := by
  induction l generalizing s with
  | nil => rfl
  | cons x r ih => grind [readMessages, dmaRead_fixed, State.dmaCheck_fixed]
@[simp] theorem State.hoSend_fixed (s : State) : (s.hoSend).fixed = s.fixed := by
  grind [State.hoSend, State.modPort_fixed, readMessages_fixed, State.chainOut_fixed, State.descriptorError_fixed, State.partGranules_fixed, State.fixed]
@[simp] theorem freeRange_fixed (s : State) (g : Nat) (x1 : Nat) : (freeRange s g x1).fixed = s.fixed := by
  induction x1 generalizing s g with
  | zero => rfl
  | succ n ih => simp [freeRange, ih]
@[simp] theorem State.giveBack_fixed (s : State) (i : Incoming) : (s.giveBack i).fixed = s.fixed := by simp [State.giveBack]
@[simp] theorem State.hoTimeout_fixed (s : State) : (s.hoTimeout).fixed = s.fixed := by
  grind [State.hoTimeout, State.giveBack_fixed, State.hoFails_fixed]
@[simp] theorem State.hoAcked_fixed (s : State) (partition : Bool) (object : Nat) (gen : BitVec 16) : (s.hoAcked partition object gen).fixed = s.fixed := by
  simp [State.hoAcked]
theorem placeMessages_fixed (s : State) (n : Nat) (l : List MovedMessage) (u : State) : placeMessages s n l = some u → u.fixed = s.fixed := by
  induction l generalizing s with
  | nil => grind [placeMessages, State.modPort_fixed, State.descriptorError_fixed, dmaWrite_fixed, State.dmaCheck_fixed]
  | cons x r ih => grind [placeMessages, State.modPort_fixed, State.descriptorError_fixed, dmaWrite_fixed, State.dmaCheck_fixed]
@[simp] theorem State.boundArrival_fixed (s : State) (i : Incoming) (x : Transfer) (pool : Pool) (e : PortEntry) :
    (s.boundArrival i x pool e).fixed = s.fixed := by
  simp [State.boundArrival]
@[simp] theorem State.arrivePort_fixed (s : State) (i : Incoming) (x : Transfer) : (s.arrivePort i x).fixed = s.fixed := by
  simp only [State.arrivePort]
  split
  · split
    · simp
    · next h => simp [placeMessages_fixed _ _ _ _ h]
  · rfl
@[simp] theorem arriveGranules_fixed (s : State) (lo n : Nat) (img : List (Nat × Granule)) : (arriveGranules s lo n img).fixed = s.fixed := by
  simp [arriveGranules]
@[simp] theorem State.arrivePartition_fixed (s : State) (i : Incoming) (x : Transfer) : (s.arrivePartition i x).fixed = s.fixed := by
  simp [State.arrivePartition]
@[simp] theorem State.hoArrive_fixed (s : State) (x : Transfer) : (s.hoArrive x).fixed = s.fixed := by
  grind [State.hoArrive, State.arrivePort_fixed, State.arrivePartition_fixed, State.rcount_fixed]
@[simp] theorem retryArrivals_fixed (s : State) (l : List Incoming) : (retryArrivals s l).fixed = s.fixed := by
  induction l generalizing s with
  | nil => rfl
  | cons x r ih => simp only [retryArrivals]; split <;> simp [ih]
@[simp] theorem ackArrivals_fixed (s : State) (l : List Incoming) : (ackArrivals s l).fixed = s.fixed := by
  induction l generalizing s with
  | nil => rfl
  | cons x r ih => simp [ackArrivals, ih]
@[simp] theorem State.progress_fixed (s : State) : (s.progress).fixed = s.fixed := by simp only [State.progress]; split <;> simp
@[simp] theorem State.sendList_fixed (s : State) : (s.sendList).fixed = s.fixed := by simp [State.sendList]
@[simp] theorem State.setRing_fixed (s : State) : (s.setRing).fixed = s.fixed := by simp [State.setRing]
@[simp] theorem State.setNeighbours_fixed (s : State) : (s.setNeighbours).fixed = s.fixed := by grind [State.setNeighbours, State.setNeighbour_fixed]
@[simp] theorem State.setReaches_fixed (s : State) (order : List (BitVec 6)) : (s.setReaches order).fixed = s.fixed := by simp [State.setReaches]
@[simp] theorem State.setOrder_fixed (s : State) (order : List (BitVec 6)) (closed : Bool) : (s.setOrder order closed).fixed = s.fixed := by
  simp [State.setOrder]
@[simp] theorem State.unitLost_fixed (s : State) (l : Link) (u : UnitAddr) : (s.unitLost l u).fixed = s.fixed := by
  grind [State.unitLost, State.modLink_fixed, State.startTake_fixed, State.raiseVecReg_fixed, State.setNeighbour_fixed, State.hoFails_fixed,
      State.chooseMirror_fixed, State.sendList_fixed, State.setReach_fixed, State.setOrder_fixed, State.event_fixed, State.fixed]
@[simp] theorem State.linkDown_fixed (s : State) (l : Link) : (s.linkDown l).fixed = s.fixed := by
  grind [State.linkDown, State.modLink_fixed, State.unitLost_fixed, State.linkOut_fixed, State.rsetField_fixed, State.rcount_fixed]
@[simp] theorem State.linkLossOnly_fixed (s : State) (l : Link) : (s.linkLossOnly l).fixed = s.fixed := by
  grind [State.linkLossOnly, State.modLink_fixed, State.raiseVecReg_fixed, State.chooseMirror_fixed, State.sendList_fixed, State.setOrder_fixed,
      State.event_fixed]
@[simp] theorem State.closeIfLinked_fixed (s : State) : (s.closeIfLinked).fixed = s.fixed := by unfold State.closeIfLinked; split <;> simp
@[simp] theorem State.linkTrained_fixed (s : State) (l : Link) (good : Nat) (u : Option UnitAddr) : (s.linkTrained l good u).fixed = s.fixed := by
  unfold State.linkTrained; split <;> simp
@[simp] theorem State.linkUpAgain_fixed (s : State) (l : Link) (good : Nat) (u : Option UnitAddr) : (s.linkUpAgain l good u).fixed = s.fixed := by
  simp [State.linkUpAgain]
@[simp] theorem State.probed_fixed (s : State) (origin target : UnitAddr) (via : Link) : (s.probed origin target via).fixed = s.fixed := by
  simp [State.probed]
@[simp] theorem State.answerFlit_fixed (s : State) (l : Link) (nak : Bool) (seqNo : BitVec 12) : (s.answerFlit l nak seqNo).fixed = s.fixed := by
  simp [State.answerFlit]
@[simp] theorem State.carries_fixed (s : State) (l : Link) (ch : Nat) (data : List Byte) (dest : Option UnitAddr) :
    (s.carries l ch data dest).fixed = s.fixed := by
  simp only [State.carries]
  split <;> simp
  split <;> simp
@[simp] theorem State.flit_fixed (s : State) (l : Link) (d : List Byte) (dest : Option UnitAddr) : (s.flit l d dest).fixed = s.fixed := by
  simp [State.flit]
@[simp] theorem State.anomaly_fixed (s : State) (k : Nat) : (s.anomaly k).fixed = s.fixed := by simp [State.anomaly]
@[simp] theorem State.noAddress_fixed (s : State) (k : Nat) : (s.noAddress k).fixed = s.fixed := by simp [State.noAddress]
@[simp] theorem State.takeAddress_fixed (s : State) (ring : BitVec 4) (p : BitVec 6) : (s.takeAddress ring p).fixed = s.fixed := by
  simp [State.takeAddress]
@[simp] theorem State.anchorTakes_fixed (s : State) : (s.anchorTakes).fixed = s.fixed := by simp [State.anchorTakes]
@[simp] theorem State.startToken_fixed (s : State) : (s.startToken).fixed = s.fixed := by simp [State.startToken]
@[simp] theorem State.tokenArrives_fixed (s : State) (k : Token) : (s.tokenArrives k).fixed = s.fixed := by simp [State.tokenArrives]
@[simp] theorem State.tokenTimeout_fixed (s : State) : (s.tokenTimeout).fixed = s.fixed := by simp [State.tokenTimeout]
@[simp] theorem State.listLost_fixed (s : State) (gone : List UnitAddr) : (s.listLost gone).fixed = s.fixed := by
  simp only [State.listLost]; split <;> simp
@[simp] theorem State.listArrives_fixed (s : State) (ring : BitVec 4) (order : List (BitVec 6)) (closed : Bool) :
    (s.listArrives ring order closed).fixed = s.fixed := by
  simp [State.listArrives]
@[simp] theorem State.addressTimeout_fixed (s : State) : (s.addressTimeout).fixed = s.fixed := by simp [State.addressTimeout]
@[simp] theorem State.addressAsked_fixed (s : State) (l : Link) : (s.addressAsked l).fixed = s.fixed := by
  grind [State.addressAsked, State.linkOut_fixed, State.setNeighbour_fixed, State.closeIfLinked_fixed, State.chooseMirror_fixed, State.sendList_fixed,
      State.setOrder_fixed, State.fixed]
@[simp] theorem State.joinAnswered_fixed (s : State) (l : Link) (ring : BitVec 4) (p : BitVec 6) : (s.joinAnswered l ring p).fixed = s.fixed := by
  cases l <;> simp [State.joinAnswered]

/-! ### Machine/Services -/

@[simp] theorem State.calRefused_fixed (s : State) (why : Nat) : (s.calRefused why).fixed = s.fixed := by simp [State.calRefused]
@[simp] theorem State.calDropped_fixed (s : State) (m : Master) (off : Nat) : (s.calDropped m off).fixed = s.fixed := by simp [State.calDropped]
@[simp] theorem State.writeCalKey_fixed (s : State) (m : Master) (v : Word) : (s.writeCalKey m v).fixed = s.fixed := by simp [State.writeCalKey]
@[simp] theorem State.writeCalCmd_fixed (s : State) (m : Master) (v : Word) : (s.writeCalCmd m v).fixed = s.fixed := by simp [State.writeCalCmd]
@[simp] theorem State.calRewritten_fixed (s : State) (verified : Bool) : (s.calRewritten verified).fixed = s.fixed := by simp [State.calRewritten]
@[simp] theorem State.calLost_fixed (s : State) : (s.calLost).fixed = s.fixed := by simp [State.calLost]
@[simp] theorem State.bootCal_fixed (s : State) : (s.bootCal).fixed = s.fixed := by simp [State.bootCal]
@[simp] theorem State.writeRecord_fixed (s : State) : (s.writeRecord).fixed = s.fixed := by simp only [State.writeRecord]; split <;> simp
@[simp] theorem State.writeCursor_fixed (s : State) (v : Word) : (s.writeCursor v).fixed = s.fixed := by simp [State.writeCursor]
@[simp] theorem State.newWindow_fixed (s : State) : (s.newWindow).fixed = s.fixed := by simp [State.newWindow]
@[simp] theorem State.aonPowerUp_fixed (s : State) : (s.aonPowerUp).fixed = s.fixed := by simp [State.aonPowerUp]
@[simp] theorem State.writeVdbg_fixed (s : State) (m : Master) (v : Word) : (s.writeVdbg m v).fixed = s.fixed := by simp [State.writeVdbg]
@[simp] theorem State.unitStops_fixed (s : State) : (s.unitStops).fixed = s.fixed := by simp [State.unitStops]
@[simp] theorem State.bridgeFails_fixed (s : State) (direction : Bool) : (s.bridgeFails direction).fixed = s.fixed := by simp [State.bridgeFails]
@[simp] theorem State.pllLost_fixed (s : State) (refclk : Bool) : (s.pllLost refclk).fixed = s.fixed := by simp [State.pllLost]
@[simp] theorem State.macLink_fixed (s : State) (m : Nat) (up : Bool) : (s.macLink m up).fixed = s.fixed := by simp [State.macLink]
@[simp] theorem State.ethrefLost_fixed (s : State) : (s.ethrefLost).fixed = s.fixed := by simp [State.ethrefLost]
@[simp] theorem State.ethrefBack_fixed (s : State) : (s.ethrefBack).fixed = s.fixed := by simp [State.ethrefBack]
@[simp] theorem State.rootPortUp_fixed (s : State) (n speed width : Nat) (cls : BitVec 24) (version : BitVec 32) :
    (s.rootPortUp n speed width cls version).fixed = s.fixed := by
  simp [State.rootPortUp]
@[simp] theorem State.rootPortDown_fixed (s : State) (n : Nat) : (s.rootPortDown n).fixed = s.fixed := by
  grind [State.rootPortDown, State.rset_fixed, State.driveError_fixed, State.freeWord_fixed]
@[simp] theorem State.bootFails_fixed (s : State) (reason : Nat) : (s.bootFails reason).fixed = s.fixed := by simp [State.bootFails]
@[simp] theorem State.releaseTiles_fixed (s : State) : (s.releaseTiles).fixed = s.fixed := by simp [State.releaseTiles]
@[simp] theorem State.writeBootConfig_fixed (s : State) (header : List Byte) : (s.writeBootConfig header).fixed = s.fixed := by
  simp [State.writeBootConfig]
@[simp] theorem State.bootOn_fixed (s : State) : (s.bootOn).fixed = s.fixed := by simp [State.bootOn]
@[simp] theorem State.acceptImage_fixed (s : State) (h : List Byte) : (s.acceptImage h).fixed = s.fixed := by
  grind [State.acceptImage, State.bootOn_fixed, State.rset_fixed, State.setPhase_fixed, State.event_fixed, State.fixed]
@[simp] theorem State.rejectImage_fixed (s : State) (host : Bool) (copy check : Nat) : (s.rejectImage host copy check).fixed = s.fixed := by
  simp [State.rejectImage]
@[simp] theorem State.waitHost_fixed (s : State) : (s.waitHost).fixed = s.fixed := by simp [State.waitHost]
@[simp] theorem State.startLoad_fixed (s : State) : (s.startLoad).fixed = s.fixed := by simp [State.startLoad]
@[simp] theorem State.loadBody_fixed (s : State) (h body : List Byte) : (s.loadBody h body).1.fixed = s.fixed := by
  grind [State.loadBody, State.busWrite_fixed]
@[simp] theorem State.copyRejected_fixed (s : State) (check : Nat) : (s.copyRejected check).fixed = s.fixed := by
  grind [State.copyRejected, State.rejectImage_fixed, State.waitHost_fixed, State.setPhase_fixed, State.bootFails_fixed, State.rsetField_fixed]
@[simp] theorem State.imageRead_fixed (s : State) (h body : List Byte) : (s.imageRead h body).fixed = s.fixed := by
  grind [State.imageRead, State.copyRejected_fixed, State.loadBody_fixed, State.setPhase_fixed, State.acceptImage_fixed]
@[simp] theorem State.hostRejected_fixed (s : State) (check : Nat) : (s.hostRejected check).fixed = s.fixed := by simp [State.hostRejected]
@[simp] theorem State.hostImage_fixed (s : State) : (s.hostImage).fixed = s.fixed := by
  simp only [State.hostImage]
  split
  case h_1 u d h =>
    have hu := fixed_of_fst h (State.busRead_fixed _ _ _ _)
    split
    · simp [hu]
    · split
      case h_1 v b hv =>
        have hv := fixed_of_fst hv (State.busRead_fixed _ _ _ _)
        split <;> simp [hu, hv]
      case h_2 v b _ hv => simp [fixed_of_fst hv (State.busRead_fixed _ _ _ _), hu]
  case h_2 u b _ h => simp [fixed_of_fst h (State.busRead_fixed _ _ _ _)]
@[simp] theorem State.ringH2u_fixed (s : State) : (s.ringH2u).fixed = s.fixed := by simp [State.ringH2u]
@[simp] theorem State.ringU2h_fixed (s : State) : (s.ringU2h).fixed = s.fixed := by simp [State.ringU2h]
@[simp] theorem State.writeHostIrq_fixed (s : State) (v : Word) : (s.writeHostIrq v).fixed = s.fixed := by simp [State.writeHostIrq]
@[simp] theorem State.step6Done_fixed (s : State) : (s.step6Done).fixed = s.fixed := by simp [State.step6Done]
@[simp] theorem markChannels_fixed (s : State) (x1 : Nat) (l2 : List ChannelResult) : (markChannels s x1 l2).fixed = s.fixed := by
  induction l2 generalizing s x1 with
  | nil => rfl
  | cons c r ih => cases c <;> simp [markChannels, ih]
@[simp] theorem State.stepThree_fixed (s : State) : (s.stepThree).fixed = s.fixed := by simp [State.stepThree]
@[simp] theorem State.ddrTrained_fixed (s : State) (l : List ChannelResult) : (s.ddrTrained l).fixed = s.fixed := by simp [State.ddrTrained]
@[simp] theorem State.dramInit_fixed (s : State) : (s.dramInit).fixed = s.fixed := by simp [State.dramInit]
@[simp] theorem State.trained_fixed (s : State) (x1 : Trained) : (s.trained x1).fixed = s.fixed := by unfold State.trained; split <;> simp
@[simp] theorem State.clearRegs_fixed (s : State) (keep : Nat → Bool) : (s.clearRegs keep).fixed = s.fixed := by simp [State.clearRegs]
@[simp] theorem State.resetThreads_fixed (s : State) : (s.resetThreads).fixed = s.fixed := by simp [State.resetThreads]
@[simp] theorem State.resetCommon_fixed (s : State) (keep : Nat → Bool) : (s.resetCommon keep).fixed = s.fixed := by simp [State.resetCommon]
@[simp] theorem State.resetTaken_fixed (s : State) (bit : Nat) : (s.resetTaken bit).fixed = s.fixed := by simp [State.resetTaken]
@[simp] theorem State.noteCauses_fixed (s : State) : (s.noteCauses).fixed = s.fixed := by simp [State.noteCauses]
@[simp] theorem State.identity0_fixed (s : State) : (s.identity0).fixed = s.fixed := by simp [State.identity0]
@[simp] theorem State.startTraining_fixed (s : State) : (s.startTraining).fixed = s.fixed := by simp [State.startTraining]
@[simp] theorem State.coldReset_fixed (s : State) (straps : Straps) : (s.coldReset straps).fixed = s.fixed := by simp [State.coldReset]
@[simp] theorem State.porstFalls_fixed (s : State) : (s.porstFalls).fixed = s.fixed := by simp [State.porstFalls]
@[simp] theorem State.warmNow_fixed (s : State) : (s.warmNow).fixed = s.fixed := by simp [State.warmNow]
@[simp] theorem State.warmReset_fixed (s : State) : (s.warmReset).fixed = s.fixed := by simp [State.warmReset]
@[simp] theorem State.railLost_fixed (s : State) (aon : Bool) : (s.railLost aon).fixed = s.fixed := by simp [State.railLost]
@[simp] theorem State.epReset_fixed (s : State) : (s.epReset).fixed = s.fixed := by simp [State.epReset]

/-! ### Machine/Device -/

@[simp] theorem State.startSync_fixed (s : State) (g : Nat) : (s.startSync g).fixed = s.fixed := by simp [State.startSync]
@[simp] theorem State.syncDone_fixed (s : State) (g : Nat) : (s.syncDone g).fixed = s.fixed := by simp [State.syncDone]
@[simp] theorem State.writeRegion_fixed (s : State) (g r : Nat) (n : RName) (v : Word) : (s.writeRegion g r n v).fixed = s.fixed := by
  simp [State.writeRegion]
@[simp] theorem State.writeAttr_fixed (s : State) (m : Master) (g r : Nat) (v : Word) : (s.writeAttr m g r v).fixed = s.fixed := by
  simp [State.writeAttr]
@[simp] theorem State.wakeForVectors_fixed (s : State) (n : Nat) : (s.wakeForVectors n).fixed = s.fixed := by simp [State.wakeForVectors]
@[simp] theorem State.writeVcfg_fixed (s : State) (m : Master) (n v : Nat) (w : Word) : (s.writeVcfg m n v w).fixed = s.fixed := by
  simp [State.writeVcfg]
@[simp] theorem State.writePend_fixed (s : State) (m : Master) (n k : Nat) (w : Word) : (s.writePend m n k w).fixed = s.fixed := by
  simp [State.writePend]
@[simp] theorem State.writeSwset_fixed (s : State) (m : Master) (n : Nat) (w : Word) : (s.writeSwset m n w).fixed = s.fixed := by
  simp [State.writeSwset]
@[simp] theorem State.writeKcmd_fixed (s : State) (v : Word) : (s.writeKcmd v).fixed = s.fixed := by simp [State.writeKcmd]
@[simp] theorem State.writeLcfg_fixed (s : State) (l : Nat) (v : Word) : (s.writeLcfg l v).fixed = s.fixed := by simp [State.writeLcfg]
@[simp] theorem State.clearBits_fixed (s : State) (r : RName) (mask v : Word) : (s.clearBits r mask v).fixed = s.fixed := by simp [State.clearBits]
@[simp] theorem State.writeSdCtrl_fixed (s : State) (v : Word) : (s.writeSdCtrl v).fixed = s.fixed := by simp [State.writeSdCtrl]
@[simp] theorem State.writePart_fixed (s : State) (k : Nat) (v : Word) : (s.writePart k v).fixed = s.fixed := by simp [State.writePart]
@[simp] theorem State.plainWrite_fixed (s : State) (r : RName) (v : Word) : (s.plainWrite r v).fixed = s.fixed := by simp [State.plainWrite]
@[simp] theorem State.regWrite_fixed (s : State) (m : Master) (r : RName) (v : Word) : (s.regWrite m r v).fixed = s.fixed := by
  unfold State.regWrite; split <;> simp
@[simp] theorem State.halfWrite_fixed (s : State) (m : Master) (r : RName) (upper : Bool) (v : Nat) : (s.halfWrite m r upper v).fixed = s.fixed := by
  simp only [State.halfWrite]
  split
  · split <;> simp
  · simp
@[simp] theorem State.devWrite_fixed (s : State) (m : Master) (a : Nat) (d : List Byte) : (s.devWrite m a d).fixed = s.fixed := by
  grind [State.devWrite, State.halfWrite_fixed, State.regWrite_fixed, State.reservedEvent_fixed]
@[simp] theorem State.performPosted_fixed (s : State) : (s.performPosted).fixed = s.fixed := by simp [State.performPosted]
@[simp] theorem State.masterWrite_fixed (s : State) (m : Master) (a : Nat) (d : List Byte) : (s.masterWrite m a d).1.fixed = s.fixed := by
  simp [State.masterWrite]
@[simp] theorem State.writeReg_fixed (s : State) (m : Master) (r : RName) (v : Word) : (s.writeReg m r v).fixed = s.fixed := by simp [State.writeReg]

/-! ### Machine/Access -/

@[simp] theorem translateParts_fixed (s : State) (t : Tid) (w : World) (l : Level) (q : Req) (l' : List (Nat × Nat)) :
    (translateParts s t w l q l').1.fixed = s.fixed := by
  induction l' generalizing s with
  | nil => rfl
  | cons x r ih => grind [translateParts, State.translateAs_fixed]
@[simp] theorem checkGates_fixed (s : State) (t : Tid) (q : Req) (l : List Seg) : (checkGates s t q l).1.fixed = s.fixed := by
  induction l generalizing s with
  | nil => rfl
  | cons x r ih => grind [checkGates, State.verdict_fixed, State.foundErrorAs_fixed, State.mediaRead_fixed]
@[simp] theorem State.checkAs_fixed (s : State) (t : Tid) (w : World) (l : Level) (inPlate : Bool) (stamp : Nat) (q : Req) :
    (s.checkAs t w l inPlate stamp q).1.fixed = s.fixed := by
  grind [State.checkAs, translateParts_fixed, checkGates_fixed]
@[simp] theorem State.check_fixed (s : State) (t : Tid) (q : Req) : (s.check t q).1.fixed = s.fixed := by simp [State.check]
@[simp] theorem State.joinReads_fixed (s : State) (t : Tid) (lines : List Nat) : (s.joinReads t lines).state.fixed = s.fixed := by
  grind [State.joinReads, touchLines_fixed, State.modThr_fixed, Perf.state]
@[simp] theorem State.loadDram_fixed (s : State) (t : Tid) (stamp : Nat) (segs : List (Nat × Nat)) : (s.loadDram t stamp segs).state.fixed = s.fixed := by
  simp only [State.loadDram]
  split
  · simp
  · split
    case h_1 u _ h => exact fixed_of_ok h (State.joinReads_fixed s t _)
    case h_2 u a h => exact fixed_of_abort h (State.joinReads_fixed s t _)
@[simp] theorem State.loadDevice_fixed (s : State) (t : Tid) (l : List (Nat × Nat)) : (s.loadDevice t l).1.fixed = s.fixed := by
  induction l generalizing s with
  | nil => rfl
  | cons x r ih => simp only [State.loadDevice]; split <;> simp [ih]
theorem plateWrites_fixed (s : State) (t : Tid) (l : List GWrite) (u : State) : plateWrites s t l = .ok u → u.fixed = s.fixed := by
  induction l generalizing s with
  | nil => grind [plateWrites, State.modThr_fixed]
  | cons x r ih => grind [plateWrites, State.modThr_fixed]
@[simp] theorem State.storeVisible_fixed (s : State) (t : Tid) (l : List GWrite) : (s.storeVisible t l).fixed = s.fixed := by
  induction l generalizing s with
  | nil => rfl
  | cons x r ih => simp [State.storeVisible, ih]
@[simp] theorem State.storeDram_fixed (s : State) (t : Tid) (ws : List GWrite) : (s.storeDram t ws).state.fixed = s.fixed := by
  grind [State.storeDram, touchLines_fixed, State.modThr_fixed, plateWrites_fixed, Perf.state]
@[simp] theorem State.completeStore_fixed (s : State) (t : Tid) (ws : List GWrite) : (s.completeStore t ws).fixed = s.fixed := by
  simp [State.completeStore]
@[simp] theorem State.flushGranule_fixed (s : State) (t : Tid) (stamp g : Nat) : (s.flushGranule t stamp g).fixed = s.fixed := by
  simp [State.flushGranule]
@[simp] theorem State.storeDevice_fixed (s : State) (t : Tid) (ws : List (Nat × List Byte)) (c : Option Cap) : (s.storeDevice t ws c).fixed = s.fixed := by
  unfold State.storeDevice; split <;> simp
@[simp] theorem State.doAtomic_fixed (s : State) (t : Tid) (stamp : Nat) (op : AtomOp) (size a : Nat) (operand expected : Cap) :
    (s.doAtomic t stamp op size a operand expected).state.fixed = s.fixed := by
  grind [State.doAtomic, State.conflict_fixed, State.joinReads_fixed, touchLines_fixed, State.applyWrite_fixed, State.flushGranule_fixed, plateWrites_fixed,
      Perf.state]
@[simp] theorem State.joinOut_fixed (s : State) (t : Tid) (k : OutKind) : (s.joinOut t k).state.fixed = s.fixed := by
  cases k <;> grind [State.joinOut, State.joinReads_fixed, plateWrites_fixed, Perf.state]

/-! ### Machine/Exception -/

@[simp] theorem State.threadLost_fixed (s : State) (t : Tid) (cw fa : Word) : (s.threadLost t cw fa).fixed = s.fixed := by simp [State.threadLost]
@[simp] theorem pushCheck_fixed (s : State) (t : Tid) (w : World) (l : Level) (c : Cap) (f : Nat) (x1 : Nat) (l2 : List Cap) :
    (pushCheck s t w l c f x1 l2).1.fixed = s.fixed := by
  induction l2 generalizing s x1 with
  | nil => rfl
  | cons x r ih => grind [pushCheck, State.checkAs_fixed]
@[simp] theorem choosePush_fixed (s : State) (t : Tid) (frame : Bool → List Cap) : (choosePush s t frame).1.fixed = s.fixed := by
  grind [choosePush, pushCheck_fixed]
@[simp] theorem parityEvents_fixed (s : State) (t : Tid) (l : List Nat) : (parityEvents s t l).fixed = s.fixed := by
  induction l generalizing s with
  | nil => rfl
  | cons x r ih => simp [parityEvents, ih]
@[simp] theorem State.enter_fixed (s : State) (t : Tid) (e : PEntry) : (s.enter t e).fixed = s.fixed := by
  simp only [State.enter]
  split
  case h_1 u h => simp [fixed_of_fst h (choosePush_fixed _ _ _)]
  case h_2 u h => simp [fixed_of_fst h (choosePush_fixed _ _ _)]
  case h_3 u segs c spill h => split <;> simp [fixed_of_fst h (choosePush_fixed _ _ _)]
@[simp] theorem State.beginEntry_fixed (s : State) (t : Tid) (e : PEntry) : (s.beginEntry t e).fixed = s.fixed := by simp [State.beginEntry]
@[simp] theorem State.raise_fixed (s : State) (t : Tid) (e : Exc) : (s.raise t e).fixed = s.fixed := by simp [State.raise]
@[simp] theorem State.raiseUe_fixed (s : State) (t : Tid) (durable : Bool) (e : Exc) : (s.raiseUe t durable e).fixed = s.fixed := by
  simp [State.raiseUe]
@[simp] theorem State.raiseParity_fixed (s : State) (t : Tid) (reg : Nat) : (s.raiseParity t reg).fixed = s.fixed := by simp [State.raiseParity]

/-! ### Machine/HostOps -/

@[simp] theorem State.dbgAnswer_fixed (s : State) (status : Nat) (v : Word) : (s.dbgAnswer status v).fixed = s.fixed := by simp [State.dbgAnswer]
@[simp] theorem State.answerRead_fixed (s : State) (w : BusWait) (d : Option (List Byte)) : (s.answerRead w d).fixed = s.fixed := by
  simp [State.answerRead]
@[simp] theorem State.answerWrite_fixed (s : State) (w : BusWait) (ok : Bool) : (s.answerWrite w ok).fixed = s.fixed := by simp [State.answerWrite]
theorem State.tryBus_fixed (s : State) (w : BusWait) (u : State) : s.tryBus w = some u → u.fixed = s.fixed := by
  grind [State.tryBus, State.answerWrite_fixed, State.busWrite_fixed, State.performPosted_fixed, State.answerRead_fixed, State.busRead_fixed]
@[simp] theorem runWaits_fixed (s : State) (blocked : Bool) (l : List BusWait) : (runWaits s blocked l).1.fixed = s.fixed := by
  induction l generalizing s blocked with
  | nil => rfl
  | cons w r ih => grind [runWaits, State.tryBus_fixed]
@[simp] theorem State.runBus_fixed (s : State) : (s.runBus).fixed = s.fixed := by simp [State.runBus]
@[simp] theorem State.busRequest_fixed (s : State) (w : BusWait) : (s.busRequest w).fixed = s.fixed := by
  grind [State.busRequest, State.tryBus_fixed, State.dbgAnswer_fixed, State.fixed]
@[simp] theorem State.retryEntries_fixed (s : State) : (s.retryEntries).fixed = s.fixed := by
  refine foldl_fixed _ (fun s n => ?_) _ _
  grind [State.enter_fixed]
@[simp] theorem State.resumeHeld_fixed (s : State) : (s.resumeHeld).fixed = s.fixed := by simp [State.resumeHeld]
@[simp] theorem State.after_fixed (s : State) : (s.after).fixed = s.fixed := by simp [State.after]

/-! ### Machine/Issue -/

@[simp] theorem State.park_fixed (s : State) (t : Tid) (w : ParkWhy) : (s.park t w).fixed = s.fixed := by simp [State.park]
@[simp] theorem State.countIssue_fixed (s : State) (t : Tid) : (s.countIssue t).fixed = s.fixed := by simp [State.countIssue]
@[simp] theorem Chk.refusal_fixed (s : State) (block : Bool) (x1 : Chk) : (Chk.refusal s block x1).state.fixed = s.fixed := by
  unfold Chk.refusal; split <;> simp
theorem holdAccess_fixed (s : State) (t : Tid) (gs : List Nat) (a : Act) : holdAccess s t gs = some a → a.state.fixed = s.fixed := by
  grind [holdAccess, Act.state]
theorem State.holdStore_fixed (s : State) (t : Tid) (segs : List Seg) (a : Act) : s.holdStore t segs = some a → a.state.fixed = s.fixed := by
  intro h
  simp only [State.holdStore] at h
  split at h
  · exact holdAccess_fixed s t _ a h
  · cases h
@[simp] theorem storeEnd_fixed (e : Option Exc) (p : Perf Unit) : (storeEnd e p).state.fixed = p.state.fixed := by
  cases p with
  | ok s _ => cases e <;> rfl
  | abort s a => rfl

/-! ### Machine/Integer -/

@[simp] theorem aluBody_fixed (s : State) (f : Word → Word → Word) (t : Tid) (rd rs1 rs2 : Reg) : (aluBody f t rd rs1 rs2 s).state.fixed = s.fixed := by
  simp [aluBody]
@[simp] theorem immBody_fixed (s : State) (f : Word → Word) (t : Tid) (rd rs1 : Reg) : (immBody f t rd rs1 s).state.fixed = s.fixed := by
  simp [immBody]
@[simp] theorem State.addOut_fixed (s : State) (t : Tid) (rd : Reg) (te : Bool) (k : OutKind) : (s.addOut t rd te k).fixed = s.fixed := by
  simp [State.addOut]
@[simp] theorem divideBody_fixed (s : State) (f : Word → Word → Word) (t : Tid) (rd rs1 rs2 : Reg) : (divideBody f t rd rs1 rs2 s).state.fixed = s.fixed := by
  simp [divideBody]
@[simp] theorem liuBody_fixed (s : State) (t : Tid) (rd : Reg) (imm : BitVec 20) : (liuBody t rd imm s).state.fixed = s.fixed := by simp [liuBody]
@[simp] theorem cpcrelBody_fixed (s : State) (t : Tid) (rd : Reg) (imm : BitVec 20) : (cpcrelBody t rd imm s).state.fixed = s.fixed := by
  simp [cpcrelBody]

/-! ### Machine/Settle -/

@[simp] theorem State.openPlate_fixed (s : State) (t : Tid) (rd : Reg) (off : BitVec 14) (defer : Bool) : (s.openPlate t rd off defer).fixed = s.fixed := by
  simp [State.openPlate]
@[simp] theorem State.readyAt_fixed (s : State) (t : Tid) : (s.readyAt t).fixed = s.fixed := by simp [State.readyAt]
@[simp] theorem State.startInval_fixed (s : State) (t : Tid) (op : Word) : (s.startInval t op).fixed = s.fixed := by simp [State.startInval]
@[simp] theorem State.dropFetched_fixed (s : State) (t : Tid) : (s.dropFetched t).fixed = s.fixed := by simp [State.dropFetched]
@[simp] theorem State.commitEmpty_fixed (s : State) (t : Tid) (rd : Reg) : (s.commitEmpty t rd).fixed = s.fixed := by simp [State.commitEmpty]
@[simp] theorem State.settle_fixed (s : State) (t : Tid) : (s.settle t).fixed = s.fixed := by
  rw [State.settle]
  cases (s.thr t).st with
  | parked w => cases w <;> simp
  | waiting w =>
    cases w with
    | entry => dsimp only; split <;> simp
    | _ => simp
  | _ => rfl

/-! ### Machine/LoadStore -/

@[simp] theorem State.sendOut_fixed (s : State) (t : Tid) (rd : Reg) (k : OutKind) : (s.sendOut t rd k).state.fixed = s.fixed := by
  grind [State.sendOut, State.addOut_fixed, State.joinOut_fixed, Act.state, Perf.state]
@[simp] theorem State.doLoad_fixed (s : State) (t : Tid) (rd : Reg) (n : Nat) (signed asCap ldc hit : Bool) (segs : List Seg) :
    (s.doLoad t rd n signed asCap ldc hit segs).state.fixed = s.fixed := by
  grind [State.doLoad, State.addOut_fixed, holdAccess_fixed, State.sendOut_fixed, State.modThr_fixed, State.loadDram_fixed, State.loadDevice_fixed,
      Act.state, Perf.state]
@[simp] theorem loadBody_fixed (s : State) (n : Nat) (signed asCap : Bool) (t : Tid) (rd rs1 : Reg) (imm : BitVec 14) (hit : Bool) :
    (loadBody n signed asCap t rd rs1 imm hit s).state.fixed = s.fixed := by
  grind [loadBody, Chk.refusal_fixed, State.check_fixed, State.doLoad_fixed, Act.state]
@[simp] theorem State.doStore_fixed (s : State) (t : Tid) (asCap : Bool) (v : Cap) (n a : Nat) (segs : List Seg) :
    (s.doStore t asCap v n a segs).state.fixed = s.fixed := by
  unfold State.doStore; split <;> simp
@[simp] theorem storeBody_fixed (s : State) (n : Nat) (asCap : Bool) (t : Tid) (rs2 rs1 : Reg) (imm : BitVec 14) :
    (storeBody n asCap t rs2 rs1 imm s).state.fixed = s.fixed := by
  simp only [storeBody]
  split
  case h_1 u segs h =>
    have hu := fixed_of_fst h (State.check_fixed _ _ _)
    exact state_getD (fun a ha => by simp [State.holdStore_fixed _ _ _ _ ha, hu]) (by simp [hu])
  case h_2 u segs e h =>
    have hu := fixed_of_fst h (State.check_fixed _ _ _)
    exact state_getD (fun a ha => by simp [State.holdStore_fixed _ _ _ _ ha, hu]) (by simp [hu])
  case h_3 u r _ _ h => simp [fixed_of_fst h (State.check_fixed _ _ _)]
@[simp] theorem State.speculate_fixed (s : State) (t : Tid) (va : Nat) (q : Want) (vault : Bool) : (s.speculate t va q vault).fixed = s.fixed := by
  grind [State.speculate, State.translateAs_fixed, State.mediaRead_fixed, State.foundError_fixed, State.gateAccess_fixed]
@[simp] theorem prefBody_fixed (s : State) (t : Tid) (rs1 : Reg) (imm : BitVec 14) (writable : Bool) :
    (prefBody t rs1 imm writable s).state.fixed = s.fixed := by
  simp only [prefBody]; split <;> simp

/-! ### Machine/Atomic -/

@[simp] theorem atomicBody_fixed (s : State) (op : AtomOp) (t : Tid) (rd rs1 rs2 : Reg) (aq rl : Bool) (size : BitVec 4) (hit : Bool) :
    (atomicBody op t rd rs1 rs2 aq rl size hit s).state.fixed = s.fixed := by
  grind [atomicBody, Chk.refusal_fixed, State.doAtomic_fixed, State.check_fixed, State.sendOut_fixed, State.modThr_fixed, State.reservedEvent_fixed,
      Act.state, Perf.state]
@[simp] theorem fillLine_fixed (s : State) (t : Tid) (line : Nat) : (fillLine s t line).fixed = s.fixed := by simp [fillLine]

/-! ### Machine/Block -/

theorem notYet_fixed (s : State) (t : Tid) (q : Req) (a : Act) : notYet s t q = some a → a.state.fixed = s.fixed := by
  intro h
  simp only [notYet] at h
  split at h
  · cases h; rfl
  · obtain ⟨b, _, rfl⟩ := Option.map_eq_some_iff.mp h
    rfl
  · cases h
/-- A read of a block iteration changes nothing that its continuation does not (R158). -/
@[simp] theorem blockRead_fixed (s : State) (t : Tid) (q : Req) (other : Option Req) (k : State → Nat → Bool → Act)
    (hk : ∀ u v b, (k u v b).state.fixed = u.fixed) : (blockRead s t q other k).state.fixed = s.fixed := by
  simp only [blockRead]
  split
  case h_1 u segs h =>
    have hu := fixed_of_fst h (State.check_fixed _ _ _)
    split
    case h_1 a ha =>
      rw [← hu]
      cases hh : holdAccess u t (segGranules segs) with
      | some b =>
        rw [hh] at ha
        cases ha
        exact holdAccess_fixed u t _ _ hh
      | none =>
        rw [hh] at ha
        simp only [Option.orElse_none] at ha
        split at ha
        · cases ha
        · obtain ⟨q', _, ha⟩ := Option.bind_eq_some_iff.mp ha
          exact notYet_fixed u t q' a ha
    case h_2 =>
      split
      · split
        case h_1 v n hv => rw [hk, fixed_of_ok hv (State.loadDram_fixed _ _ _ _), hu]
        case h_2 v x hv => rw [Act.state_abort, fixed_of_abort hv (State.loadDram_fixed _ _ _ _), hu]
      · simp [hk, hu]
  case h_2 u r _ h => simp [fixed_of_fst h (State.check_fixed _ _ _)]
/-- So does a write. -/
@[simp] theorem blockWrite_fixed (s : State) (t : Tid) (q : Req) (asCap : Bool) (v : Cap) (k : State → Act)
    (hk : ∀ u, (k u).state.fixed = u.fixed) : (blockWrite s t q asCap v k).state.fixed = s.fixed := by
  simp only [blockWrite]
  split
  case h_1 u segs h =>
    have hu := fixed_of_fst h (State.check_fixed _ _ _)
    split
    case h_1 a ha => rw [holdAccess_fixed u t _ a ha, hu]
    case h_2 =>
      split
      case h_1 w _ hw => rw [hk, fixed_of_ok hw (State.doStore_fixed _ _ _ _ _ _ _), hu]
      case h_2 w x hw => rw [Act.state_abort, fixed_of_abort hw (State.doStore_fixed _ _ _ _ _ _ _), hu]
  case h_2 u r _ h => simp [fixed_of_fst h (State.check_fixed _ _ _)]
@[simp] theorem iterationEnd_fixed (s : State) (c : Nat) : (iterationEnd s c).state.fixed = s.fixed := by unfold iterationEnd; split <;> simp
@[simp] theorem bmovBody_fixed (s : State) (t : Tid) (rd rs1 rs2 : Reg) (tags dir : Bool) : (bmovBody t rd rs1 rs2 tags dir s).state.fixed = s.fixed := by
  simp only [bmovBody]
  split
  · rfl
  · split <;> simp
@[simp] theorem bfillBody_fixed (s : State) (t : Tid) (rd rs1 rs2 : Reg) : (bfillBody t rd rs1 rs2 s).state.fixed = s.fixed := by
  simp only [bfillBody]
  split
  · rfl
  · simp
@[simp] theorem bscanBody_fixed (s : State) (t : Tid) (rd rs1 rs2 : Reg) : (bscanBody t rd rs1 rs2 s).state.fixed = s.fixed := by
  simp only [bscanBody]
  split
  · rfl
  · exact blockRead_fixed _ _ _ _ _ (fun u v b => by split <;> simp)
@[simp] theorem bcmpBody_fixed (s : State) (t : Tid) (rd rs1 rs2 : Reg) : (bcmpBody t rd rs1 rs2 s).state.fixed = s.fixed := by
  simp only [bcmpBody]
  split
  · rfl
  · refine blockRead_fixed _ _ _ _ _ (fun u v b => ?_)
    exact blockRead_fixed _ _ _ _ _ (fun u v b => by split <;> simp)
@[simp] theorem bchkBody_fixed (s : State) (t : Tid) (rs1 rs2 : Reg) (mask : BitVec 10) : (bchkBody t rs1 rs2 mask s).state.fixed = s.fixed := by
  simp only [bchkBody]; split <;> simp

/-! ### Machine/Branch -/

@[simp] theorem State.jumpRel_fixed (s : State) (t : Tid) (k : Int) : (s.jumpRel t k).fixed = s.fixed := by simp [State.jumpRel]
@[simp] theorem branchBody_fixed (s : State) (onZero : Bool) (t : Tid) (rt : Reg) (off : BitVec 20) :
    (branchBody onZero t rt off s).state.fixed = s.fixed := by
  unfold branchBody; split <;> simp
@[simp] theorem parityAct_fixed (s : State) (t : Tid) (reg : Nat) : (parityAct s t reg).state.fixed = s.fixed := by simp [parityAct]
@[simp] theorem callBody_fixed (s : State) (t : Tid) (off : BitVec 20) : (callBody t off s).state.fixed = s.fixed := by
  simp only [callBody]; split <;> simp
@[simp] theorem jrBody_fixed (s : State) (t : Tid) (rs1 : Reg) : (jrBody t rs1 s).state.fixed = s.fixed := by simp only [jrBody]; split <;> simp
@[simp] theorem callrBody_fixed (s : State) (t : Tid) (rs1 : Reg) : (callrBody t rs1 s).state.fixed = s.fixed := by
  grind [callrBody, State.modThr_fixed, Act.state]
@[simp] theorem retBody_fixed (s : State) (t : Tid) : (retBody t s).state.fixed = s.fixed := by
  grind [retBody, parityAct_fixed, State.modThr_fixed, Act.state]
@[simp] theorem rspopBody_fixed (s : State) (t : Tid) (rd : Reg) : (rspopBody t rd s).state.fixed = s.fixed := by
  grind [rspopBody, parityAct_fixed, State.modThr_fixed, Act.state]
@[simp] theorem rspushBody_fixed (s : State) (t : Tid) (rs1 : Reg) (lv : Level) : (rspushBody t rs1 lv s).state.fixed = s.fixed := by
  grind [rspushBody, State.modThr_fixed, Act.state]

/-! ### Machine/Capability -/

@[simp] theorem deriveBody_fixed (s : State) (f : Thread → Derive) (t : Tid) (rd : Reg) : (deriveBody f t rd s).state.fixed = s.fixed := by
  unfold deriveBody; split <;> simp
@[simp] theorem inspectBody_fixed (s : State) (f : Cap → Word) (t : Tid) (rd rs1 : Reg) : (inspectBody f t rd rs1 s).state.fixed = s.fixed := by
  simp [inspectBody]
@[simp] theorem clearError_fixed (s : State) (t : Tid) (size : Nat) (segs : List Seg) : (clearError s t size segs).fixed = s.fixed := by
  unfold clearError
  split
  · rfl
  · split <;> simp
@[simp] theorem paintBody_fixed (s : State) (size : Nat) (t : Tid) (rs1 rs2 : Reg) : (paintBody size t rs1 rs2 s).state.fixed = s.fixed := by
  simp only [paintBody]
  split
  case h_1 u segs h =>
    have hu := fixed_of_fst h (State.check_fixed _ _ _)
    exact state_getD (fun a ha => by simp [State.holdStore_fixed _ _ _ _ ha, hu]) (by simp [hu])
  case h_2 u segs e h =>
    have hu := fixed_of_fst h (State.check_fixed _ _ _)
    exact state_getD (fun a ha => by simp [State.holdStore_fixed _ _ _ _ ha, hu]) (by simp [hu])
  case h_3 u r _ _ h => simp [fixed_of_fst h (State.check_fixed _ _ _)]

/-! ### Machine/System -/

@[simp] theorem fenceBody_fixed (s : State) (t : Tid) (mask : BitVec 4) : (fenceBody t mask s).state.fixed = s.fixed := by
  unfold fenceBody; split <;> simp
@[simp] theorem syncBody_fixed (s : State) (t : Tid) : (syncBody t s).state.fixed = s.fixed := by unfold syncBody; split <;> simp
@[simp] theorem syncIBody_fixed (s : State) (t : Tid) : (syncIBody t s).state.fixed = s.fixed := by
  grind [syncIBody, State.dropFetched_fixed, Act.state]
@[simp] theorem raiseAfter_fixed (s : State) (t : Tid) (cause : Nat) : (raiseAfter s t cause).state.fixed = s.fixed := by
  unfold raiseAfter; split <;> simp
@[simp] theorem brkBody_fixed (s : State) (t : Tid) : (brkBody t s).state.fixed = s.fixed := by
  grind [brkBody, raiseAfter_fixed, State.abortPlate_fixed, State.modThr_fixed, Act.state]
@[simp] theorem wcallBody_fixed (s : State) (t : Tid) (rs1 : Reg) : (wcallBody t rs1 s).state.fixed = s.fixed := by
  grind [wcallBody, State.translateAs_fixed, State.modThr_fixed, Act.state]
@[simp] theorem frameChecks_fixed (s : State) (t : Tid) (c : Cap) (x1 : Nat) (x2 : Nat) : (frameChecks s t c x1 x2).1.fixed = s.fixed := by
  induction x1 generalizing s x2 with
  | zero => rfl
  | succ k ih => grind [frameChecks, State.check_fixed]
@[simp] theorem frameValues_fixed (s : State) (t : Tid) (ldc : Bool) (l : List Seg) : (frameValues s t ldc l).1.fixed = s.fixed := by
  induction l generalizing s with
  | nil => rfl
  | cons x r ih => simp only [frameValues]; split <;> simp [ih]
@[simp] theorem eretBody_fixed (s : State) (t : Tid) : (eretBody t s).state.fixed = s.fixed := by
  grind [eretBody, Chk.refusal_fixed, State.modThr_fixed, frameValues_fixed, frameChecks_fixed, State.event_fixed, Act.state]
@[simp] theorem tstartBody_fixed (s : State) (t : Tid) (rd rs1 rs2 : Reg) : (tstartBody t rd rs1 rs2 s).state.fixed = s.fixed := by
  grind [tstartBody, Act.state]
@[simp] theorem texitBody_fixed (s : State) (t : Tid) : (texitBody t s).state.fixed = s.fixed := by
  grind [texitBody, endClaims_fixed, State.modThr_fixed, Act.state]
@[simp] theorem invalBody_fixed (s : State) (t : Tid) (rs1 : Reg) : (invalBody t rs1 s).state.fixed = s.fixed := by
  grind [invalBody, State.startInval_fixed, Act.state]
@[simp] theorem Inval.remove_fixed (s : State) (i : Inval) (n : Nat) : (Inval.remove i s n).1.fixed = s.fixed := by
  unfold Inval.remove; split <;> simp
@[simp] theorem State.keepInval_fixed (s : State) (t : Tid) (i : Inval) : (s.keepInval t i).fixed = s.fixed := by simp [State.keepInval]
@[simp] theorem crrBody_fixed (s : State) (t : Tid) (rd : Reg) (cr : BitVec 14) : (crrBody t rd cr s).state.fixed = s.fixed := by
  unfold crrBody; split <;> simp
@[simp] theorem crwBody_fixed (s : State) (t : Tid) (cr : BitVec 14) (rs1 : Reg) : (crwBody t cr rs1 s).state.fixed = s.fixed := by
  grind [crwBody, State.modThr_fixed, Act.state]

/-! ### Machine/PlateInsn -/

@[simp] theorem pbeginBody_fixed (s : State) (t : Tid) (rd : Reg) (off : BitVec 14) (defer : Bool) : (pbeginBody t rd off defer s).state.fixed = s.fixed := by
  grind [pbeginBody, State.openPlate_fixed, State.modThr_fixed, Act.state]
@[simp] theorem pcommitBody_fixed (s : State) (t : Tid) (rd : Reg) : (pcommitBody t rd s).state.fixed = s.fixed := by
  grind [pcommitBody, State.modThr_fixed, State.commitEmpty_fixed, Act.state]
@[simp] theorem pabortBody_fixed (s : State) (t : Tid) (code : BitVec 8) : (pabortBody t code s).state.fixed = s.fixed := by
  unfold pabortBody; split <;> simp
@[simp] theorem pstatBody_fixed (s : State) (t : Tid) (rd : Reg) (sel : BitVec 2) : (pstatBody t rd sel s).state.fixed = s.fixed := by
  simp [pstatBody]

/-! ### Machine/Interrupt -/

@[simp] theorem State.abandon_fixed (s : State) (t : Tid) : (s.abandon t).fixed = s.fixed := by simp [State.abandon]
@[simp] theorem State.clearPend_fixed (s : State) (n v : Nat) : (s.clearPend n v).fixed = s.fixed := by simp [State.clearPend]
@[simp] theorem takeovers_fixed (s : State) (t : Tid) (v : Nat) (l : List (Nat × Nat)) : (takeovers s t v l).1.fixed = s.fixed := by
  induction l generalizing s v with
  | nil => rfl
  | cons p r ih => obtain ⟨c, x⟩ := p; simp only [takeovers]; split <;> simp [ih]

/-! ### Machine/EtcherCmds -/

@[simp] theorem State.recoveryComplete_fixed (s : State) : (s.recoveryComplete).fixed = s.fixed := by
  grind [State.recoveryComplete, State.recoveryEnds_fixed, State.releaseTiles_fixed, State.sendList_fixed, State.rsetField_fixed]
@[simp] theorem State.nvmeComplete_fixed (s : State) (status : BitVec 16) : (s.nvmeComplete status).fixed = s.fixed := by
  grind [State.nvmeComplete, State.longFails_fixed, State.driveDone_fixed, State.driveError_fixed, State.fenceDone_fixed, State.repairReadFails_fixed,
      State.fixed]

/-! ### Machine/HostCmds -/

@[simp] theorem State.hostRead_fixed (s : State) (bar2 : Bool) (offset width : Nat) : (s.hostRead bar2 offset width).fixed = s.fixed := by
  simp [State.hostRead]
@[simp] theorem State.hostWrite_fixed (s : State) (bar2 : Bool) (offset : Nat) (data : List Byte) : (s.hostWrite bar2 offset data).fixed = s.fixed := by
  simp [State.hostWrite]
@[simp] theorem State.selectIr_fixed (s : State) (i : TapIr) : (s.selectIr i).fixed = s.fixed := by simp [State.selectIr]
@[simp] theorem State.selectXfer_fixed (s : State) : (s.selectXfer).fixed = s.fixed := by simp [State.selectXfer]
@[simp] theorem State.dbgMem_fixed (s : State) (addr : Word) (data : Option (List Byte)) : (s.dbgMem addr data).fixed = s.fixed := by
  simp [State.dbgMem]
@[simp] theorem State.dbgDenied_fixed (s : State) (reg : Nat) : (s.dbgDenied reg).fixed = s.fixed := by simp [State.dbgDenied]
@[simp] theorem State.setDbgReg_fixed (s : State) (c : Cap) : (s.setDbgReg c).fixed = s.fixed := by simp [State.setDbgReg]
theorem State.regDataBlocked_fixed (s : State) (u : State) : s.regDataBlocked = some u → u.fixed = s.fixed := by
  grind [State.regDataBlocked, State.dbgAnswer_fixed, State.dbgDenied_fixed]
@[simp] theorem State.dbgRegRead_fixed (s : State) (n : Nat) : (s.dbgRegRead n).fixed = s.fixed := by
  simp only [State.dbgRegRead]
  split
  case h_6 => exact fixed_getD (State.regDataBlocked_fixed s) (by simp)
  all_goals simp
@[simp] theorem State.stopNow_fixed (s : State) (t : Tid) : (s.stopNow t).fixed = s.fixed := by simp [State.stopNow]
@[simp] theorem State.stopThread_fixed (s : State) (t : Tid) : (s.stopThread t).fixed = s.fixed := by simp [State.stopThread]
@[simp] theorem State.runAgain_fixed (s : State) (t : Tid) : (s.runAgain t).fixed = s.fixed := by unfold State.runAgain; split <;> simp
@[simp] theorem State.resumeThread_fixed (s : State) (t : Tid) : (s.resumeThread t).fixed = s.fixed := by simp [State.resumeThread]
@[simp] theorem State.stepThread_fixed (s : State) (t : Tid) : (s.stepThread t).fixed = s.fixed := by
  grind [State.stepThread, State.runAgain_fixed, State.check_fixed, State.modThr_fixed, State.wakeGated_fixed]
@[simp] theorem State.thrCmd_fixed (s : State) (v : Nat) : (s.thrCmd v).fixed = s.fixed := by
  grind [State.thrCmd, State.stopThread_fixed, State.stepThread_fixed, State.resumeThread_fixed, State.dbgAnswer_fixed, State.dbgDenied_fixed]
@[simp] theorem State.writeRegData_fixed (s : State) (v : Word) : (s.writeRegData v).fixed = s.fixed := by
  grind [State.writeRegData, State.regDataBlocked_fixed, State.setDbgReg_fixed, State.dbgAnswer_fixed]
@[simp] theorem State.writeClaim_fixed (s : State) (v : Word) : (s.writeClaim v).fixed = s.fixed := by simp [State.writeClaim]
@[simp] theorem State.dbgRegWrite_fixed (s : State) (n : Nat) (v : Word) : (s.dbgRegWrite n v).fixed = s.fixed := by
  unfold State.dbgRegWrite; split <;> simp

/-! ### Machine/Money -/

@[simp] theorem moneyEnd_fixed (s : State) (t : Tid) (rd : Reg) (r : MoneyResult) : (moneyEnd s t rd r).state.fixed = s.fixed := by
  unfold moneyEnd; split <;> simp
@[simp] theorem moneyBody_fixed (s : State) (f : Thread → MoneyResult) (t : Tid) (rd : Reg) : (moneyBody f t rd s).state.fixed = s.fixed := by
  simp [moneyBody]
@[simp] theorem moneyArithBody_fixed (s : State) (op : MoneyOp) (t : Tid) (rd rs1 rs2 : Reg) (scale : BitVec 6) (round : BitVec 3) (te : Bool) :
    (moneyArithBody op t rd rs1 rs2 scale round te s).state.fixed = s.fixed := by
  simp only [moneyArithBody]; split <;> simp
@[simp] theorem moneyLongBody_fixed (s : State) (op : MoneyOp) (divider : Bool) (t : Tid) (rd rs1 rs2 : Reg) (scale : BitVec 6) (round : BitVec 3)
    (te : Bool) :
    (moneyLongBody op divider t rd rs1 rs2 scale round te s).state.fixed = s.fixed := by
  simp only [moneyLongBody]; split <;> simp

/-! ### Machine/TlsRecords -/

@[simp] theorem State.tlsFails_fixed (s : State) (n alert : Nat) : (s.tlsFails n alert).fixed = s.fixed := by
  simp only [State.tlsFails]; split <;> simp
@[simp] theorem State.peerFin_fixed (s : State) (n : Nat) : (s.peerFin n).fixed = s.fixed := by simp [State.peerFin]
@[simp] theorem openRecord_fixed (s : State) (slot : Nat) (header frag : List Byte) : (openRecord s slot header frag).1.fixed = s.fixed := by
  simp only [openRecord]; split <;> simp
@[simp] theorem State.openContent_fixed (s : State) (n : Nat) (content : List Byte) (ct : Byte) : (s.openContent n content ct).fixed = s.fixed := by
  simp [State.openContent]
@[simp] theorem State.tlsRecord_fixed (s : State) (n : Nat) (header frag : List Byte) : (s.tlsRecord n header frag).fixed = s.fixed := by
  grind [State.tlsRecord, State.modPort_fixed, openRecord_fixed, State.openContent_fixed, State.tlsFails_fixed]
@[simp] theorem tlsRecords_fixed (s : State) (n : Nat) (x1 : Nat) : (tlsRecords s n x1).fixed = s.fixed := by
  induction x1 generalizing s with
  | zero => rfl
  | succ k ih => simp [tlsRecords, ih]
@[simp] theorem State.readRecords_fixed (s : State) (n : Nat) : (s.readRecords n).fixed = s.fixed := by simp [State.readRecords]
@[simp] theorem State.closedNotice_fixed (s : State) (n : Nat) : (s.closedNotice n).fixed = s.fixed := by simp [State.closedNotice]

/-! ### Machine/PortInsn -/

@[simp] theorem withWord_fixed (s : State) (t : Tid) (rd : Reg) (v : Word) : (withWord t rd v s).state.fixed = s.fixed := by simp [withWord]
@[simp] theorem withStatus_fixed (s : State) (t : Tid) (rd : Reg) (c : PStatus) : (withStatus t rd c s).state.fixed = s.fixed := by simp [withStatus]
@[simp] theorem recvInPlate_fixed (s : State) (t : Tid) (rd : Reg) (n : Nat) : (recvInPlate t rd n s).state.fixed = s.fixed := by
  grind [recvInPlate, withStatus_fixed, State.modThr_fixed, Act.state]
@[simp] theorem recvOutside_fixed (s : State) (t : Tid) (rd : Reg) (n : Nat) : (recvOutside t rd n s).state.fixed = s.fixed := by
  grind [recvOutside, State.modPort_fixed, withStatus_fixed, State.conflict_fixed, State.windowUpdate_fixed, State.modThr_fixed, Act.state]
@[simp] theorem State.usesPort_fixed (s : State) (t : Tid) (n : Nat) (recv : Bool) : (s.usesPort t n recv).fixed = s.fixed := by simp [State.usesPort]
@[simp] theorem precvBody_fixed (s : State) (t : Tid) (rd rs1 : Reg) : (precvBody t rd rs1 s).state.fixed = s.fixed := by
  grind [precvBody, withStatus_fixed, recvOutside_fixed, State.usesPort_fixed, recvInPlate_fixed, Act.state]
@[simp] theorem State.addEntry_fixed (s : State) (n : Nat) (e : TxEntry) : (s.addEntry n e).fixed = s.fixed := by simp [State.addEntry]
@[simp] theorem psendBody_fixed (s : State) (t : Tid) (rd rs1 rs2 : Reg) : (psendBody t rd rs1 rs2 s).state.fixed = s.fixed := by
  grind [psendBody, withStatus_fixed, State.usesPort_fixed, State.modThr_fixed, State.addEntry_fixed, State.pumpPort_fixed, Act.state]
@[simp] theorem pwaitBody_fixed (s : State) (t : Tid) (rd rs1 rs2 : Reg) : (pwaitBody t rd rs1 rs2 s).state.fixed = s.fixed := by
  grind [pwaitBody, State.claimPort_fixed, endClaims_fixed, withWord_fixed, Act.state]
@[simp] theorem pctlQueryBody_fixed (s : State) (t : Tid) (rd rs1 : Reg) : (pctlQueryBody t rd rs1 s).state.fixed = s.fixed := by
  simp only [pctlQueryBody]; split <;> simp
@[simp] theorem closeOp_fixed (s : State) (t : Tid) (rd : Reg) (n : Nat) : (closeOp t rd n s).state.fixed = s.fixed := by
  simp only [closeOp]; split <;> simp
@[simp] theorem abortOp_fixed (s : State) (t : Tid) (rd : Reg) (n : Nat) : (abortOp t rd n s).state.fixed = s.fixed := by
  grind [abortOp, State.modPort_fixed, withStatus_fixed, State.conflict_fixed, State.sendRst_fixed, State.offerPort_fixed, Act.state]
@[simp] theorem releaseOp_fixed (s : State) (t : Tid) (rd : Reg) (n : Nat) : (releaseOp t rd n s).state.fixed = s.fixed := by
  grind [releaseOp, State.modPort_fixed, withStatus_fixed, State.conflict_fixed, State.freePort_fixed, Act.state]
@[simp] theorem setconfOp_fixed (s : State) (t : Tid) (rd rs2 : Reg) (n : Nat) : (setconfOp t rd rs2 n s).state.fixed = s.fixed := by
  simp only [setconfOp]; split <;> simp
@[simp] theorem keysOp_fixed (s : State) (t : Tid) (rd rs2 : Reg) (n : Nat) : (keysOp t rd rs2 n s).state.fixed = s.fixed := by
  simp only [keysOp]; split <;> simp
@[simp] theorem lpoolBody_fixed (s : State) (t : Tid) (rd rs1 rs2 : Reg) : (lpoolBody t rd rs1 rs2 s).state.fixed = s.fixed := by
  grind [lpoolBody, withStatus_fixed, State.fixed, Act.state]

/-! ### Machine/Tcp -/

@[simp] theorem State.answerRst_fixed (s : State) (mac : Nat) (f : Frame) (g : Segment) : (s.answerRst mac f g).fixed = s.fixed := by
  unfold State.answerRst; split <;> simp
@[simp] theorem State.bindPort_fixed (s : State) (n l k mac : Nat) (f : Frame) (q : Packet) (g : Segment) (pool : Pool) :
    (s.bindPort n l k mac f q g pool).fixed = s.fixed := by
  simp [State.bindPort]
@[simp] theorem State.acceptSyn_fixed (s : State) (mac : Nat) (f : Frame) (q : Packet) (g : Segment) : (s.acceptSyn mac f q g).fixed = s.fixed := by
  grind [State.acceptSyn, State.raiseVecReg_fixed, State.bindPort_fixed, State.answerRst_fixed, State.rcount_fixed, State.event_fixed]
@[simp] theorem State.takeAck_fixed (s : State) (n : Nat) (g : Segment) : (s.takeAck n g).fixed = s.fixed := by simp [State.takeAck]
@[simp] theorem State.arriveBytes_fixed (s : State) (n : Nat) (d : List Byte) : (s.arriveBytes n d).fixed = s.fixed := by simp [State.arriveBytes]
@[simp] theorem State.ackPolicy_fixed (s : State) (n : Nat) (now full : Bool) : (s.ackPolicy n now full).fixed = s.fixed := by simp [State.ackPolicy]
@[simp] theorem State.takeText_fixed (s : State) (n : Nat) (g : Segment) : (s.takeText n g).fixed = s.fixed := by simp [State.takeText]
@[simp] theorem State.noteSegment_fixed (s : State) (n mac : Nat) (f : Frame) (g : Segment) : (s.noteSegment n mac f g).fixed = s.fixed := by
  simp [State.noteSegment]
@[simp] theorem State.synRcvdSegment_fixed (s : State) (n mac : Nat) (f : Frame) (g : Segment) : (s.synRcvdSegment n mac f g).fixed = s.fixed := by
  simp [State.synRcvdSegment]
@[simp] theorem State.openSegment_fixed (s : State) (n mac : Nat) (f : Frame) (g : Segment) : (s.openSegment n mac f g).fixed = s.fixed := by
  simp [State.openSegment]
@[simp] theorem State.portSegment_fixed (s : State) (n mac : Nat) (f : Frame) (g : Segment) : (s.portSegment n mac f g).fixed = s.fixed := by
  grind [State.portSegment, State.synRcvdSegment_fixed, State.chainOut_fixed, State.answerRst_fixed, State.openSegment_fixed]
@[simp] theorem State.tcpSegment_fixed (s : State) (mac : Nat) (f : Frame) (q : Packet) (g : Segment) : (s.tcpSegment mac f q g).fixed = s.fixed := by
  grind [State.tcpSegment, State.acceptSyn_fixed, State.portSegment_fixed, State.answerRst_fixed]
@[simp] theorem State.retransmit_fixed (s : State) (n : Nat) : (s.retransmit n).fixed = s.fixed := by
  grind [State.retransmit, State.modPort_fixed, State.failPort_fixed, State.resend_fixed, State.sendRst_fixed, State.sendSegment_fixed, State.event_fixed]
@[simp] theorem State.timeWaitEnds_fixed (s : State) (n : Nat) : (s.timeWaitEnds n).fixed = s.fixed := by simp [State.timeWaitEnds]
@[simp] theorem State.forwardEnds_fixed (s : State) (n : Nat) : (s.forwardEnds n).fixed = s.fixed := by simp [State.forwardEnds]
@[simp] theorem State.framePolicy_fixed (s : State) (n skip len : Nat) : (s.framePolicy n skip len).fixed = s.fixed := by simp [State.framePolicy]
@[simp] theorem State.queueMessage_fixed (s : State) (n off len used : Nat) (hs : Bool) : (s.queueMessage n off len used hs).fixed = s.fixed := by
  simp [State.queueMessage]
@[simp] theorem State.placeMessage_fixed (s : State) (n room used : Nat) (d : List Byte) (hs : Bool) : (s.placeMessage n room used d hs).fixed = s.fixed := by
  grind [State.placeMessage, State.descriptorError_fixed, dmaWrite_fixed, State.queueMessage_fixed, State.dmaCheck_fixed]
@[simp] theorem State.reserveRing_fixed (s : State) (n room : Nat) : (s.reserveRing n room).fixed = s.fixed := by
  grind [State.reserveRing, State.modPort_fixed]
@[simp] theorem State.truncate_fixed (s : State) (n : Nat) : (s.truncate n).fixed = s.fixed := by simp [State.truncate]
@[simp] theorem State.placeHandshake_fixed (s : State) (n : Nat) : (s.placeHandshake n).fixed = s.fixed := by
  simp only [State.placeHandshake]; split <;> simp
@[simp] theorem State.delimit_fixed (s : State) (n : Nat) : (s.delimit n).fixed = s.fixed := by
  grind [State.delimit, State.modPort_fixed, State.placeMessage_fixed, State.failPort_fixed, State.truncate_fixed, State.framePolicy_fixed,
      State.reserveRing_fixed, State.placeHandshake_fixed, State.event_fixed]

/-! ### Machine/Network -/

@[simp] theorem State.frameIp_fixed (s : State) (mac : Nat) (f : Frame) : (s.frameIp mac f).fixed = s.fixed := by
  grind [State.frameIp, State.rawReceive_fixed, State.tcpSegment_fixed, State.rcount_fixed]
@[simp] theorem State.frame_fixed (s : State) (mac : Nat) (f : Frame) : (s.frame mac f).fixed = s.fixed := by simp [State.frame]
@[simp] theorem State.forwardedFrame_fixed (s : State) (port : Nat) (gen : BitVec 16) (mac : Nat) (f : Frame) :
    (s.forwardedFrame port gen mac f).fixed = s.fixed := by
  grind [State.forwardedFrame, State.portSegment_fixed, State.rcount_fixed]

/-! ### Machine/SudonCmds -/

@[simp] theorem State.enumerated_fixed (s : State) : (s.enumerated).fixed = s.fixed := by simp [State.enumerated]
@[simp] theorem State.probeEnds_fixed (s : State) (l : Link) (reached : Bool) : (s.probeEnds l reached).fixed = s.fixed := by
  unfold State.probeEnds; split <;> simp

/-! ### Machine/Tick -/

@[simp] theorem State.tickTile_fixed (s : State) (n : Nat) : (s.tickTile n).fixed = s.fixed := by simp [State.tickTile]
@[simp] theorem State.tickThreads_fixed (s : State) : (s.tickThreads).fixed = s.fixed := by simp [State.tickThreads]
@[simp] theorem State.tick_fixed (s : State) : (s.tick).fixed = s.fixed := by simp [State.tick]

/-! ### What a command of the debug module or a port operation does inside -/

@[simp] theorem State.xfer_fixed (s : State) (f : State → State) (hf : ∀ u, (f u).fixed = u.fixed) : (s.xfer f).fixed = s.fixed := by
  simp [State.xfer, hf]
@[simp] theorem pctlBody_fixed (s : State) (t : Tid) (rd rs1 : Reg) (op : Nat → State → Act) (hop : ∀ n u, (op n u).state.fixed = u.fixed) :
    (pctlBody t rd rs1 op s).state.fixed = s.fixed := by
  simp only [pctlBody]
  split
  · rfl
  · split
    · simp
    · split <;> simp [hop]

/-! ### Issuing -/

theorem admitFetched_fixed (s v : State) (t : Tid) (p : Pre) : ((admitFetched s t p).state v).fixed = s.fixed := by
  grind [admitFetched, Admit.state, State.raise_fixed, State.countIssue_fixed, State.park_fixed, State.raiseParity_fixed]

theorem tryIssue_fixed (s : State) (t : Tid) (p : Pre) : ((tryIssue s t p).state s).fixed = s.fixed := by
  grind [tryIssue, Admit.state, State.park_fixed, State.raiseParity_fixed, State.check_fixed, admitFetched_fixed, State.raise_fixed,
    State.raiseUe_fixed, State.abortPlate_fixed]

@[simp] theorem Act.finish_fixed (a : Act) (t : Tid) (k : Nat) (dests : List Reg) : (a.finish t k dests).fixed = a.state.fixed := by
  cases a <;> simp [Act.finish]

theorem issue_fixed (s : State) (t : Tid) (p : Pre) (body : State → Act) (hb : ∀ u, (body u).state.fixed = u.fixed) :
    (issue s t p body).fixed = s.fixed := by
  have h := tryIssue_fixed s t p
  cases e : tryIssue s t p with
  | idle => rw [issue_idle e]
  | stopped u => rw [issue_stopped e]; simpa [e] using h
  | go u => rw [issue_go e]; simpa [e, hb] using h

/-- The result is a next state, with the queue and the fuses of s. -/
def Steps (s : State) (r : Result State) : Prop := ∃ u, r = .next u ∧ u.fixed = s.fixed

theorem steps_next {s u : State} (h : u.fixed = s.fixed) : Steps s (.next u) := ⟨u, rfl, h⟩

theorem steps_onPowered {f : State → State} (hf : ∀ u, (f u).fixed = u.fixed) (s : State) : Steps s (onPowered f s) :=
  steps_next (by simp [hf])

theorem steps_onClocked {f : State → State} (hf : ∀ u, (f u).fixed = u.fixed) (s : State) : Steps s (onClocked f s) :=
  steps_next (by simp [hf])

theorem steps_onChain {f : State → State} (hf : ∀ u, (f u).fixed = u.fixed) (s : State) : Steps s (onChain f s) :=
  steps_onClocked (fun u => by simp [hf]) s

theorem steps_writeCommand (m : Master) (r : RName) (v : Word) (s : State) : Steps s (writeCommand m r v s) :=
  steps_onPowered (fun u => by simp) s

/-! ### Commands that answer by cases -/

theorem execTstartAnswer_steps (c : Tid) (s : State) : Steps s (execTstartAnswer c s) := by
  unfold execTstartAnswer
  dsimp only
  split
  · split
    · exact steps_next (by simp)
    · split
      · exact steps_next (by simp)
      · split <;> exact steps_next (by simp)
  · exact steps_next rfl

theorem execInvalVAcknowledge_steps (t : Tid) (who : InvTarget) (s : State) : Steps s (execInvalVAcknowledge t who s) := by
  unfold execInvalVAcknowledge
  split
  · exact steps_next rfl
  · next i _ =>
    cases who with
    | tile n =>
      dsimp only
      split
      · exact steps_next rfl
      · rcases h : i.remove s n with ⟨u, j⟩
        exact steps_next ((State.keepInval_fixed u t _).trans (fixed_of_fst h (Inval.remove_fixed s i n)))
    | cluster n => exact steps_next ((State.keepInval_fixed _ t _).trans (by simp))

theorem execLongOperationComplete_steps (t : Tid) (n : Nat) (s : State) : Steps s (execLongOperationComplete t n s) := by
  unfold execLongOperationComplete
  dsimp only
  split
  · exact steps_next rfl
  · split
    · exact steps_next rfl
    · split
      · split <;> exact steps_next (by simp)
      · exact steps_next (by simp)

theorem execLoadDataArrival_steps (t : Tid) (n : Nat) (s : State) : Steps s (execLoadDataArrival t n s) := by
  unfold execLoadDataArrival
  dsimp only
  split
  · exact steps_next rfl
  · split
    · exact steps_next rfl
    · split
      · exact steps_next (by simp)
      · split
        · exact steps_next (by simp)
        · split
          · exact steps_next (by simp)
          · split
            case h_1 u v h => exact steps_next (by simp [fixed_of_ok h (State.loadDram_fixed _ _ _ _)])
            case h_2 u a h => exact steps_next (by simp [fixed_of_abort h (State.loadDram_fixed _ _ _ _)])
          · split
            case h_1 u v h => exact steps_next (by simp [fixed_of_ok h (State.doAtomic_fixed _ _ _ _ _ _ _ _)])
            case h_2 u a h => exact steps_next (by simp [fixed_of_abort h (State.doAtomic_fixed _ _ _ _ _ _ _ _)])
          · exact steps_next rfl

theorem execStoreComplete_steps (t : Tid) (n : Nat) (s : State) : Steps s (execStoreComplete t n s) := by
  unfold execStoreComplete
  grind [steps_next, State.completeStore_fixed, State.modThr_fixed, State.settle_fixed]

theorem execInstructionFetchArrival_steps (t : Tid) (s : State) : Steps s (execInstructionFetchArrival t s) := by
  unfold execInstructionFetchArrival
  grind [steps_next, touchLines_fixed, State.abortPlate_fixed, State.boundary_fixed, fillLine_fixed, State.active_fixed, State.makeReady_fixed]

theorem execCommitRequest_steps (t : Tid) (s : State) : Steps s (execCommitRequest t s) := by
  unfold execCommitRequest
  split <;> exact steps_next (by simp)

theorem execCommitPoint_steps (t : Tid) (s : State) : Steps s (execCommitPoint t s) := by
  unfold execCommitPoint
  split <;> exact steps_next (by simp)

theorem execJournalWaitExpiry_steps (t : Tid) (s : State) : Steps s (execJournalWaitExpiry t s) := by
  unfold execJournalWaitExpiry
  split <;> exact steps_next (by simp)

theorem execDeferLimitExpiry_steps (t : Tid) (s : State) : Steps s (execDeferLimitExpiry t s) := by
  unfold execDeferLimitExpiry
  dsimp only
  split <;> exact steps_next (by simp)

theorem execInterruptEntry_steps (t : Tid) (during : List (Nat × Nat)) (s : State) : Steps s (execInterruptEntry t during s) := by
  unfold execInterruptEntry
  split
  · exact steps_next (by simp)
  · split
    · exact steps_next (by simp)
    · split <;> exact steps_next (by simp)

theorem execPwaitTimeout_steps (t : Tid) (s : State) : Steps s (execPwaitTimeout t s) := by
  unfold execPwaitTimeout
  split
  · split <;> exact steps_next (by simp)
  · exact steps_next rfl

/-! ### Every command -/

/-- An instruction command issues an instruction of its thread, whose body keeps the queue and the fuses. -/
theorem exec_issuer {i : Instr} {t : Tid} (h : i.issuer = some t) :
    ∃ p body, (∀ u : State, (body u).state.fixed = u.fixed) ∧ ∀ s, exec i s = .next (issue s t p body) := by
  cases i with
  | add | sub | and | or | xor | andn | sll | srl | sra | seq | sne | slt | sltu | sle | sleu | min | max | mul | mulh | mulhu | div | divu | rem
  | remu | addi | andi | ori | xori | slti | sltiu | slli | srli | srai | liu | cpcrel | bz | bnz | j | call | jr | callr | ret | rspop | rspush
  | ccopy | cpoint | cstep | cstepi | cnarrow | cnarrowX | cdrop | cdropi | ctint | cwrap | cunwrap | cfitlen | cfitmask | cpaint | cpaintL | crdbase
  | crdlen | crdrt | crdclr | crdseal | crdtag | crdcur | lb | lbu | lh | lhu | lw | lwu | ld | lq | lc | pref | sb | sh | sw | sd | sq | sc
  | atomicSwap | atomicAdd | atomicAnd | atomicOr | atomicXor | atomicMax | atomicMin | atomicMaxu | atomicMinu | cas | fence | sync | syncI | sysc
  | wcall | eret | brk | tstart | texit | invalV | crr | crw | madd | msub | mmul | mdiv | mresc | mneg | mabs | mceq | mclt | mcle | misv | ma2l
  | ml2a | mlget | mlset | mcvti | mcvtm | bmov | bfill | bscan | bcmp | bchk | pbegin | pbeginDefer | pcommit | pabort | pstat | precv | psend
  | pwait | pctlQuery | pctlClose | pctlAbort | pctlRelease | pctlSetconf | pctlKeys | pctlLpool =>
    cases h
    exact ⟨_, _, fun u => by simp, fun s => rfl⟩
  | _ => cases h

/-- Every command answers a next state with the queue and the fuses that it found. -/
theorem exec_steps (i : Instr) (s : State) : Steps s (exec i s) := by
  cases h : i.issuer with
  | some t =>
    obtain ⟨p, body, hb, he⟩ := exec_issuer h
    rw [he]
    exact steps_next (issue_fixed s t p body hb)
  | none =>
    cases i with
    | tstartAnswer => exact execTstartAnswer_steps _ s
    | invalVAcknowledge => exact execInvalVAcknowledge_steps _ _ s
    | longOperationComplete => exact execLongOperationComplete_steps _ _ s
    | loadDataArrival => exact execLoadDataArrival_steps _ _ s
    | storeComplete => exact execStoreComplete_steps _ _ s
    | instructionFetchArrival => exact execInstructionFetchArrival_steps _ s
    | commitRequest => exact execCommitRequest_steps _ s
    | commitPoint => exact execCommitPoint_steps _ s
    | journalWaitExpiry => exact execJournalWaitExpiry_steps _ s
    | deferLimitExpiry => exact execDeferLimitExpiry_steps _ s
    | interruptEntry => exact execInterruptEntry_steps _ _ s
    | pwaitTimeout => exact execPwaitTimeout_steps _ s
    | speculativeAccess | portClaimExpiry | eventRecordWrite | rateWindowStart | tapReset | coldReset | warmReset | porstNAssert | vddAonPowerUp
    | railLoss | epPerst => exact steps_next (by simp)
    | vectorRaise | pllLockLoss | ethrefLoss | ethrefRestore | gateSyncComplete | ledgerTick | thermalCapLift | plan | pmbusCorrection | vrSettleExpiry
    | calRewriteComplete | recWindowRead | extest | samplePreload | idcode | bypass | dbgxferNop | dbgxferMemRead | dbgxferMemWrite | dbgxferRegRead
    | dbgxferRegWrite | threadStop | threadResume | threadStep | thrRegDataWrite | linkTrainingComplete | ddr5TrainingComplete | dramInitComplete
    | imageReadComplete | hostRead | hostWrite | registerWrite =>
      apply steps_onPowered
      simp
    | vcfgWrite | pendWrite | swsetWrite | rawtxTailWrite | rawrxTailWrite | kcmdInstall | kcmdErase | format | openJournal | etchCtrlWrite | take
    | hoStart | gateSync | rattrWrite | domctlWrite | calKeyWrite | calCmdWrite | recCursorWrite | vdbgAuthWrite | mbH2uDoorbell | mbU2hDoorbell
    | hostIrqWrite => apply steps_writeCommand
    | lineRepairComplete | ethernetFrameReceive | messageDelimit | retransmissionTimeout | ackTimerExpiry | timeWaitExpiry | formatComplete
    | recoveryComplete | tailRequestTimeout | mirrorTimeout | nvmeSafeGatherTimeout | partialBlockTimeout | nvmeCommandComplete | proofEpochBoundary
    | pwrfailAssert | pwrfailFilterExpiry | powerFailDrainComplete | pwrfailDeassert | flitReceive | linkIdleTimeout | linkTrainingLost | linkRetrain
    | enumerationTokenTimeout | addressTimeout | probeTimeout | fenceCheck | takeWaitExpiry | takeoverComplete | handoverTimeout | forwardedFrame
    | forwardWindowExpiry | drainedPositionReport | bridgeFailure | clockGate | retentionOffExpiry | cryptoRetention | domainWakeComplete
    | rootPortLinkUp | rootPortLinkDown | macLinkUp | macLinkDown =>
      apply steps_onClocked
      simp
    | tailRequest | tailAnswer | mirrorRecord | mirrorAck | drainedPosition | enumerationToken | positionList | addressRequest | joinAnswer | probe
    | probeAnswer | handoverReserve | handoverReserveAnswer | handoverTransfer | handoverAck =>
      apply steps_onChain
      simp
    | _ => cases h

/-- Settles O2: no arm of exec refuses, and a type of faults without a constructor leaves no other answer. -/
theorem everyCommandAnswers : Obligations.EveryCommandAnswers := by
  have hexec (c : Instr) (s : State) : ∃ u, exec c s = .next u := (exec_steps c s).imp fun _ h => h.1
  refine ⟨hexec, fun s => ?_⟩
  unfold step
  split
  · exact ⟨_, rfl⟩
  · exact hexec _ _

/-- Settles O3: every command keeps `State.fixed`, and a step takes at most its command from the queue. -/
theorem commandsKeepQueueAndFuses : Obligations.CommandsKeepQueueAndFuses := by
  have hexec (c : Instr) (s u : State) (h : exec c s = .next u) : u.pending = s.pending ∧ u.fuses = s.fuses := by
    obtain ⟨v, hv, hf⟩ := exec_steps c s
    cases hv.symm.trans h
    exact State.fixed_eq_iff.mp hf
  refine ⟨fun c s u h => (hexec c s u h).1, fun s u h => ?_⟩
  unfold step at h
  split at h
  · cases h
    exact (State.fixed_eq_iff.mp (State.tick_fixed s)).2
  · next c rest _ => exact (hexec c _ u h).2

end Sys2Proof.Machine
end

section
/-! What the checks of an access leave alone (R48, R66, R196): memory, keys, drive, chain and boot, and every thread whose plate does not
abort. `CheckFrame t` relates the states before and after; it holds of every step of a check that passes, and it composes. -/

namespace Sys2Proof.Machine

/-! ### Steps that change no thread and nothing that the checks could -/

/-- The fields that only an abort or an error can change while an access is checked. -/
def State.quiet (s : State) := (s.mem, s.gran, s.keys, s.drive0, s.sudon, s.boot, s.threads, s.ports, s.etch, s.bellows)

theorem State.quiet_eq_iff {s u : State} : u.quiet = s.quiet ↔
    u.mem = s.mem ∧ u.gran = s.gran ∧ u.keys = s.keys ∧ u.drive0 = s.drive0 ∧ u.sudon = s.sudon ∧ u.boot = s.boot ∧ u.threads = s.threads ∧
      u.ports = s.ports ∧ u.etch = s.etch ∧ u.bellows = s.bellows := by
  simp [State.quiet]

@[simp] theorem raiseMsix_quiet (s : State) (v : Nat) : (s.raiseMsix v).quiet = s.quiet := by
  unfold State.raiseMsix
  split <;> rfl

@[simp] theorem rset_quiet (s : State) (r : RName) (v : Word) : (s.rset r v).quiet = s.quiet := rfl

@[simp] theorem rcount_quiet (s : State) (r : RName) : (s.rcount r).quiet = s.quiet := rfl

@[simp] theorem setTile_quiet (s : State) (n : Nat) (x : Tile) : (s.setTile n x).quiet = s.quiet := rfl

@[simp] theorem addCluster_quiet (s : State) (n : Nat) (x : TlbEntry) : (s.addCluster n x).quiet = s.quiet := rfl

@[simp] theorem addTile_quiet (s : State) (n : Nat) (x : TlbEntry) : (s.addTile n x).quiet = s.quiet := rfl

@[simp] theorem event_quiet (s : State) (code cls inst : Nat) (items : List (Nat × Nat)) : (s.event code cls inst items).quiet = s.quiet := by
  have hm := raiseMsix_quiet s
  unfold State.event
  cases eventMsix code with
  | none =>
    dsimp only
    split
    · rfl
    · split <;> rfl
  | some v =>
    dsimp only
    split
    · exact hm v
    · split <;> exact hm v

@[simp] theorem gateGranule_quiet (s : State) (m : Master) (g a : Nat) (rd wr : Bool) (c : Option (BitVec 4 × BitVec 4)) :
    (s.gateGranule m g a rd wr c).1.quiet = s.quiet := by
  unfold State.gateGranule
  dsimp only
  split
  · rfl
  · simp
  · split <;> simp

@[simp] theorem gateAccess_quiet (s : State) (m : Master) (a : Nat) (rd wr : Bool) (c : Option (BitVec 4 × BitVec 4)) :
    (s.gateAccess m a rd wr c).1.quiet = s.quiet := by
  unfold State.gateAccess
  split <;> simp

@[simp] theorem verdict_quiet (s : State) (m : Master) (a : Nat) (rd wr : Bool) (c : Option (BitVec 4 × BitVec 4)) :
    (s.verdict m a rd wr c).1.quiet = s.quiet := by
  have hg := fun u : State => gateAccess_quiet u m a rd wr c
  unfold State.verdict
  grind [event_quiet]

@[simp] theorem mediaRead_quiet (s : State) (line : Nat) : (s.mediaRead line).quiet = s.quiet := by
  unfold State.mediaRead
  split
  · rfl
  · split <;> simp

theorem discardBad_quiet (s : State) (t : Tid) (cluster : Nat) (hit : TlbEntry → Bool) (k : Nat) (l : List TlbEntry) :
    (discardBad s t cluster hit k l).1.quiet = s.quiet := by
  induction l generalizing s k with
  | nil => rfl
  | cons x r ih =>
    unfold discardBad
    split
    · rw [ih, event_quiet]
    · exact ih s (k + 1)

@[simp] theorem scrub_quiet (s : State) (t : Tid) (hit : TlbEntry → Bool) : (s.scrub t hit).quiet = s.quiet := by
  unfold State.scrub
  dsimp only
  split <;> split
  · exact (discardBad_quiet ..).trans (discardBad_quiet ..)
  · exact discardBad_quiet ..
  · exact discardBad_quiet ..
  · rfl

@[simp] theorem fillTlb_quiet (s : State) (n : Nat) (x : TlbEntry) (f : Found) : (s.fillTlb n x f).quiet = s.quiet := by
  cases f <;> simp [State.fillTlb]

/-! ### The relation -/

/-- The fields that no abort changes. -/
def State.stored (s : State) := (s.mem, s.gran, s.keys, s.drive0, s.sudon, s.boot)

/-- From s to u the checks of an access of thread t have run: see the head of this section. -/
structure CheckFrame (t : Tid) (s u : State) : Prop where
  stored : u.stored = s.stored
  own : (s.thr t).st = .ready → SameArch (s.thr t) (u.thr t)
  others : ∀ x, x ≠ t → (s.plate x).abortable = false → { u.thr x with st := (s.thr x).st } = s.thr x
  quietAlone : s.alone t → (∀ x, x ≠ t → u.thr x = s.thr x) ∧ u.ports = s.ports ∧ u.etch = s.etch ∧ u.bellows = s.bellows

theorem SameArch.refl (th : Thread) : SameArch th th := rfl

theorem SameArch.st_eq {a b : Thread} (h : SameArch a b) : b.st = a.st := by
  unfold SameArch at h
  rw [← h]

theorem SameArch.stores_eq {a b : Thread} (h : SameArch a b) : b.stores = a.stores := by
  unfold SameArch at h
  rw [← h]

theorem SameArch.trans {a b c : Thread} (h : SameArch a b) (h' : SameArch b c) : SameArch a c := by
  have hb := congrArg
    (fun th : Thread => { th with issued := a.issued, sinceTick := a.sinceTick, resume := a.resume, tlbmiss := a.tlbmiss, walks := a.walks }) h'
  exact hb.trans h

theorem CheckFrame.sameMemory {t : Tid} {s u : State} (h : CheckFrame t s u) : SameMemory s u := by
  obtain ⟨hm, hg, -⟩ := (by simpa [State.stored] using h.stored)
  exact ⟨hm, hg⟩

theorem CheckFrame.of_quiet {t : Tid} {s u : State} (h : u.quiet = s.quiet) : CheckFrame t s u := by
  obtain ⟨hm, hg, hk, hd, hsu, hb, ht, hp, he, hbe⟩ := State.quiet_eq_iff.mp h
  have thr : ∀ x, u.thr x = s.thr x := fun x => by rw [State.thr, State.thr, ht]
  refine ⟨by simp [State.stored, *], fun _ => ?_, fun x _ _ => ?_, fun _ => ⟨fun x _ => thr x, hp, he, hbe⟩⟩
  · rw [thr]
    exact SameArch.refl _
  · rw [thr]

theorem CheckFrame.refl (t : Tid) (s : State) : CheckFrame t s s := .of_quiet rfl

theorem CheckFrame.plate_eq {t : Tid} {s u : State} (h : CheckFrame t s u) {x : Tid} (hx : x ≠ t) (ha : (s.plate x).abortable = false) :
    u.plate x = s.plate x := by
  unfold State.plate
  rw [← h.others x hx ha]

theorem CheckFrame.trans {t : Tid} {s u v : State} (h : CheckFrame t s u) (h' : CheckFrame t u v) : CheckFrame t s v where
  stored := h'.stored.trans h.stored
  own := fun hr =>
    have ho := h.own hr
    ho.trans (h'.own (ho.st_eq.trans hr))
  others := fun x hx ha => by
    have h1 := h.others x hx ha
    have h2 := congrArg (fun th : Thread => { th with st := (s.thr x).st }) (h'.others x hx (by rw [h.plate_eq hx ha, ha]))
    exact h2.trans h1
  quietAlone := fun ha => by
    obtain ⟨ht, hp, he, hb⟩ := h.quietAlone ha
    obtain ⟨ht', hp', he', hb'⟩ := h'.quietAlone (fun x hx => by rw [h.plate_eq hx (ha x hx), ha x hx])
    exact ⟨fun x hx => (ht' x hx).trans (ht x hx), hp'.trans hp, he'.trans he, hb'.trans hb⟩

theorem CheckFrame.then_quiet {t : Tid} {s u v : State} (h : CheckFrame t s u) (hq : v.quiet = u.quiet) : CheckFrame t s v := h.trans (.of_quiet hq)

/-- A change of the counters of the thread itself. -/
theorem CheckFrame.modThr (t : Tid) (s : State) (f : Thread → Thread) (hf : ∀ th, SameArch th (f th)) : CheckFrame t s (s.modThr t f) where
  stored := rfl
  own := fun _ => by
    rw [State.modThr_thr, if_pos rfl]
    exact hf _
  others := fun x hx _ => by rw [State.modThr_thr, if_neg hx]
  quietAlone := fun _ => ⟨fun x hx => by rw [State.modThr_thr, if_neg hx], rfl, rfl, rfl⟩

/-! ### Aborts of other plates (R204) -/

theorem Map.find_map_values {α β : Type} (f : Nat → α → β) (m : List (Nat × α)) (k : Nat) :
    Map.find (m.map (fun p => (p.1, f p.1 p.2))) k = (Map.find m k).map (f k) := by
  induction m with
  | nil => rfl
  | cons p r ih =>
    rw [List.map_cons, Map.find_cons, Map.find_cons, ih]
    split
    · next h => rw [h]; rfl
    · rfl

/-- A thread of number k after the units that tile n waits for are free. -/
def unparked (n : Nat) (why : ParkWhy) (k : Nat) (th : Thread) : Thread := if k / 8 = n ∧ th.st = .parked why then { th with st := .ready } else th

theorem unparkUnit_thr (s : State) (n : Nat) (why : ParkWhy) (x : Tid) : (unparkUnit s n why).thr x = unparked n why x.toNat (s.thr x) := by
  have hmap : (unparkUnit s n why).threads = s.threads.map (fun p => (p.1, unparked n why p.1 p.2)) := by
    refine List.map_congr_left fun p _ => ?_
    unfold unparked
    split <;> rfl
  rw [State.thr, State.thr, hmap, Map.get, Map.get, Map.find_map_values]
  cases Map.find s.threads x.toNat with
  | none => exact (if_neg (fun h => nomatch h.2)).symm
  | some th => rfl

/-- The units that a tile frees change no more than the state of a PARKED thread. -/
theorem freeUnits_thr (s : State) (n : Nat) (outs : List Out) (x : Tid) :
    { (s.freeUnits n outs).thr x with st := (s.thr x).st } = s.thr x ∧ ((s.thr x).st = .ready → (s.freeUnits n outs).thr x = s.thr x) := by
  have same : ∀ (why : ParkWhy) (th : Thread) (u : TState), { unparked n why x.toNat th with st := u } = { th with st := u } := fun why th u => by
    unfold unparked
    split <;> rfl
  have ready : ∀ (why : ParkWhy) (th : Thread), th.st = .ready → unparked n why x.toNat th = th := fun why th h =>
    if_neg (fun hp => by rw [h] at hp; exact nomatch hp.2)
  unfold State.freeUnits State.freeDivider State.freeMoneyDivider
  dsimp only
  split <;> split <;> simp +contextual [unparkUnit_thr, same, ready]

theorem freeUnits_stored (s : State) (n : Nat) (outs : List Out) : (s.freeUnits n outs).stored = s.stored := by
  unfold State.freeUnits
  dsimp only
  split <;> split <;> rfl

theorem wakeGated_stored (s : State) (n : Nat) : (s.wakeGated n).stored = s.stored := by
  unfold State.wakeGated
  split <;> rfl

theorem wakeGated_thr (s : State) (n : Nat) (x : Tid) : (s.wakeGated n).thr x = s.thr x := by
  unfold State.wakeGated
  split <;> rfl

/-- The state in which t's plate is aborted, before the units of its results are free and its tile wakes. -/
def State.plateGone (s : State) (t : Tid) (a : AbortInfo) : State :=
  let u := s.chargePlate t false 0
  let u := if (s.thr t).plate.sends = [] then u else dropSends u t
  State.setThr { u with etch := { u.etch with queue := u.etch.queue.filter (fun r => decide (r.who ≠ Committer.thread t)) } } t ((s.thr t).aborted a)

/-- A READY thread wakes its tile. -/
def State.wakeReady (s : State) (t : Tid) : State := if (s.thr t).st = .ready then s.wakeGated (tileOf t) else s

theorem abortPlate_not_abortable (s : State) (t : Tid) (a : AbortInfo) (h : (s.plate t).abortable = false) : s.abortPlate t a = s := by
  unfold State.plate at h
  simp [State.abortPlate, h]

theorem abortPlate_abortable (s : State) (t : Tid) (a : AbortInfo) (h : (s.plate t).abortable = true) :
    s.abortPlate t a = ((s.plateGone t a).freeUnits (tileOf t) (s.thr t).outs).wakeReady t :=
  if_neg (by unfold State.plate at h; simp [h])

theorem plateGone_stored (s : State) (t : Tid) (a : AbortInfo) : (s.plateGone t a).stored = s.stored := by
  unfold State.plateGone
  dsimp only
  split <;> rfl

theorem plateGone_thr (s : State) (t : Tid) (a : AbortInfo) (x : Tid) (hx : x ≠ t) : (s.plateGone t a).thr x = s.thr x := by
  unfold State.plateGone
  dsimp only
  rw [State.setThr_thr, if_neg hx]
  split <;> rfl

theorem wakeReady_stored (s : State) (t : Tid) : (s.wakeReady t).stored = s.stored := by
  unfold State.wakeReady
  split
  · exact wakeGated_stored ..
  · rfl

theorem wakeReady_thr (s : State) (t x : Tid) : (s.wakeReady t).thr x = s.thr x := by
  unfold State.wakeReady
  split
  · exact wakeGated_thr ..
  · rfl

theorem abortPlate_stored (s : State) (t : Tid) (a : AbortInfo) : (s.abortPlate t a).stored = s.stored := by
  cases h : (s.plate t).abortable with
  | false => rw [abortPlate_not_abortable s t a h]
  | true => rw [abortPlate_abortable s t a h, wakeReady_stored, freeUnits_stored, plateGone_stored]

/-- An abort of t's plate changes another thread no more than the unit that it frees does. -/
theorem abortPlate_thr (s : State) (t : Tid) (a : AbortInfo) (x : Tid) (hx : x ≠ t) :
    { (s.abortPlate t a).thr x with st := (s.thr x).st } = s.thr x ∧ ((s.thr x).st = .ready → (s.abortPlate t a).thr x = s.thr x) := by
  cases h : (s.plate t).abortable with
  | false => rw [abortPlate_not_abortable s t a h]; exact ⟨rfl, fun _ => rfl⟩
  | true =>
    rw [abortPlate_abortable s t a h, wakeReady_thr, ← plateGone_thr s t a x hx]
    exact freeUnits_thr ..

theorem abortPlate_frame {t u : Tid} (s : State) (a : AbortInfo) (hu : u ≠ t) : CheckFrame t s (s.abortPlate u a) := by
  cases ha : (s.plate u).abortable with
  | false =>
    rw [abortPlate_not_abortable s u a ha]
    exact .refl t s
  | true =>
    refine ⟨abortPlate_stored s u a, fun hr => ?_, fun x _ hxa => ?_, fun hal => ?_⟩
    · rw [(abortPlate_thr s u a t hu.symm).2 hr]
      exact SameArch.refl _
    · have hxu : x ≠ u := by
        rintro rfl
        rw [ha] at hxa
        cases hxa
      exact (abortPlate_thr s u a x hxu).1
    · rw [hal u hu] at ha
      cases ha

theorem abortAll_frame {t : Tid} (a : AbortInfo) (l : List Tid) (s : State) (h : ∀ u ∈ l, u ≠ t) : CheckFrame t s (s.abortAll a l) := by
  induction l generalizing s with
  | nil => exact .refl t s
  | cons u r ih => exact (abortPlate_frame s a (h u (by simp))).trans (ih _ (fun v hv => h v (by simp [hv])))

theorem conflict_frame (t : Tid) (s : State) (line : Nat) (write : Bool) : CheckFrame t s (s.conflict (some t) line write) := by
  refine abortAll_frame _ _ s fun u hu => ?_
  unfold State.meets at hu
  obtain ⟨p, hp, rfl⟩ := List.mem_map.mp hu
  simp only [List.mem_filter, Bool.and_eq_true, decide_eq_true_eq] at hp
  exact fun h => hp.2.1.2 (congrArg some h)

end Sys2Proof.Machine
end

section
/-! Issuing (R66, R67, R83): a check that passes keeps the frame of its thread, so does an instruction that issues, and a thread that cannot issue leaves the
state alone. -/

namespace Sys2Proof.Machine

/-! ### Translation (R247, R257) -/

theorem touchLine_quiet (s : State) (t : Tid) (line : Nat) : (s.touchLine t line).1.quiet = s.quiet := by
  unfold State.touchLine
  dsimp only
  split
  · rfl
  · split <;> rfl

theorem touchLines_frame (t : Tid) (lines : List Nat) (s : State) : CheckFrame t s (touchLines s t lines).1 := by
  induction lines generalizing s with
  | nil => exact .refl t s
  | cons l r ih =>
    unfold touchLines
    dsimp only
    refine (CheckFrame.of_quiet (touchLine_quiet s t l)).trans ((abortAll_frame _ _ _ fun u hu => ?_).trans (ih _))
    simpa using (List.mem_filter.mp hu).2

/-- A walk that finds a leaf. -/
theorem walkFrom_frame {t : Tid} {w : World} {asid : BitVec 12} {va : Nat} {spec : Bool} {k lv tb : Nat} {s u : State} {x : TlbEntry}
    (h : walkFrom s t w asid va spec k lv tb = (u, .leaf x)) : CheckFrame t s u := by
  induction k generalizing s lv tb with
  | zero => simp [walkFrom] at h
  | succ k ih =>
    have hg := gateAccess_quiet s (.tile t) (tb + 16 * (va / 2 ^ coverBits lv % 1024)) true false none
    unfold walkFrom at h
    dsimp only at h
    split at h
    · simp at h
    split at h
    · simp at h
    split at h
    · split at h <;> simp at h
    · next s' d hd hga =>
      rw [hga] at hg
      have hs : CheckFrame t s (if spec then s else s') := by
        split
        · exact .refl t s
        · exact .of_quiet hg
      generalize (if spec then s else s') = s₁ at h hs
      split at h
      · simp at h
      have ht := touchLines_frame t [(tb + 16 * (va / 2 ^ coverBits lv % 1024)) / 64] s₁
      split at h
      · simp at h
      · next s₂ htl =>
        have h₂ : CheckFrame t s s₂ := by
          split at htl
          · cases htl
            exact hs
          · rw [htl] at ht
            exact hs.trans ht
        split at h
        · simp at h
        split at h
        · cases h
          exact h₂.then_quiet (mediaRead_quiet ..)
        · exact (h₂.then_quiet (by simp)).trans (ih h)

theorem tlbmiss_frame (t : Tid) (s : State) (spec : Bool) :
    CheckFrame t s (if spec then s else s.modThr t (fun th => { th with tlbmiss := th.tlbmiss + 1 })) := by
  split
  · exact .refl t s
  · exact .modThr t s _ fun _ => rfl

theorem walks_frame (t : Tid) (s : State) (spec : Bool) :
    CheckFrame t s (if spec then s else s.modThr t (fun th => { th with walks := th.walks + 1 })) := by
  split
  · exact .refl t s
  · exact .modThr t s _ fun _ => rfl

theorem lookup_frame {t : Tid} {w : World} {troot : Word} {va : Nat} {spec : Bool} {s u : State} {x : TlbEntry} {f : Found}
    (h : s.lookup t w troot va spec = (u, .leaf x, f)) : CheckFrame t s u := by
  unfold State.lookup at h
  dsimp only at h
  have h₁ : CheckFrame t s (s.scrub t (fun x => x.covers (asidOf troot) w va)) := .of_quiet (scrub_quiet ..)
  generalize s.scrub t (fun x => x.covers (asidOf troot) w va) = s₁ at h h₁
  split at h
  · cases h
    exact h₁
  have h₂ := h₁.trans (tlbmiss_frame t s₁ spec)
  generalize (if spec then s₁ else s₁.modThr t (fun th => { th with tlbmiss := th.tlbmiss + 1 })) = s₂ at h h₂
  split at h
  · cases h
    exact h₂
  have h₃ := h₂.trans (walks_frame t s₂ spec)
  generalize (if spec then s₂ else s₂.modThr t (fun th => { th with walks := th.walks + 1 })) = s₃ at h h₃
  split at h
  · cases h
  · next v r hr hw =>
    cases h
    split at hw <;> exact h₃.trans (walkFrom_frame hw)

theorem translateAs_frame {t : Tid} {w : World} {l : Level} {va : Nat} {q : Want} {spec : Bool} {s u : State} {x : Trans}
    (h : s.translateAs t w l va q spec = (u, .ok x)) : CheckFrame t s u := by
  unfold State.translateAs at h
  dsimp only at h
  split at h
  · obtain rfl : s = u := congrArg Prod.fst h
    exact .refl t s
  split at h
  · next v e f hl =>
    have hv := lookup_frame hl
    split at h
    · cases h
      exact hv.then_quiet (fillTlb_quiet ..)
    · obtain rfl := congrArg Prod.fst h
      exact hv
  · cases h
  · cases h
  · cases h

theorem translateParts_frame {t : Tid} {w : World} {l : Level} {q : Req} {parts : List (Nat × Nat)} {s u : State} {m : List (Nat × Nat × Trans)}
    (h : translateParts s t w l q parts = (u, .ok m)) : CheckFrame t s u := by
  induction parts generalizing s m with
  | nil =>
    obtain rfl := congrArg Prod.fst h
    exact .refl t _
  | cons p r ih =>
    unfold translateParts at h
    split at h
    · cases h
    · cases h
    · cases h
    · next v x hx =>
      have hv := translateAs_frame hx
      split at h
      · next v' m' hm =>
        cases h
        exact hv.trans (ih hm)
      · next hn => exact (hn _ _ h).elim

/-! ### Gates and media (R48, R363) -/

/-- The gates and the media pass every granule. -/
theorem checkGates_frame {t : Tid} {q : Req} {segs l : List Seg} {s u : State} (h : checkGates s t q segs = (u, l, none, none)) : CheckFrame t s u := by
  induction segs generalizing s l with
  | nil =>
    obtain rfl := congrArg Prod.fst h
    exact .refl t _
  | cons x r ih =>
    have hv := verdict_quiet s (.tile t) x.pa (q.want.rd || q.want.ex) q.want.wr (gateColours s t q x)
    unfold checkGates at h
    dsimp only at h
    split at h
    · cases h
    · cases h
    · next v hp =>
      rw [hp] at hv
      split at h
      · simp at h
      · cases hr : checkGates (v.mediaRead (x.pa / 64)) t q r with
        | mk v' y =>
          obtain ⟨l', d, e⟩ := y
          rw [hr] at h
          cases h
          exact (CheckFrame.of_quiet ((mediaRead_quiet ..).trans hv)).trans (ih hr)

/-- An access that passes its checks. -/
theorem check_frame {t : Tid} {q : Req} {s u : State} {segs : List Seg} (h : s.check t q = (u, .ok segs)) : CheckFrame t s u := by
  unfold State.check State.checkAs at h
  dsimp only at h
  split at h
  · cases h
  split at h
  · cases h
  · cases h
  · cases h
  · next v parts hp =>
    have hv := translateParts_frame hp
    split at h
    · cases h
    split at h
    · split at h <;> cases h
    split at h
    · cases h
    split at h
    · cases h
    · split at h <;> cases h
    · next hg =>
      cases h
      exact hv.trans (checkGates_frame hg)

/-! ### Issuing -/

theorem countIssue_frame (t : Tid) (s : State) : CheckFrame t s (s.countIssue t) :=
  (CheckFrame.modThr t s (fun th => { th with issued := th.issued + 1, sinceTick := th.sinceTick + 1, resume := false }) fun _ => rfl).then_quiet rfl

theorem admitFetched_frame {t : Tid} {p : Pre} {s u : State} (h : admitFetched s t p = .go u) : CheckFrame t s u := by
  unfold admitFetched at h
  dsimp only at h
  repeat' split at h
  all_goals cases h
  exact countIssue_frame t s

/-- A thread that issues is READY, and the checks of its fetch have kept its frame. -/
theorem tryIssue_frame {t : Tid} {p : Pre} {s u : State} (h : tryIssue s t p = .go u) : (s.thr t).st = .ready ∧ CheckFrame t s u := by
  unfold tryIssue at h
  dsimp only at h
  split at h
  · cases h
  next hst =>
  refine ⟨Decidable.not_not.mp fun hn => hst (.inl hn), ?_⟩
  split at h
  · cases h
  split at h
  · cases h
  split at h
  · next v segs hc =>
    split at h
    · cases h
    · exact (check_frame hc).trans (admitFetched_frame h)
  all_goals cases h

theorem tryIssue_idle {s : State} {t : Tid} (p : Pre) (h : (s.thr t).st ≠ .ready ∨ s.tileRuns (tileOf t) = false) : tryIssue s t p = .idle :=
  if_pos (by simpa using h)

/-- Settles O8: the frame of the fetch's checks and the count of the issue, and every instruction goes through `issue`. -/
theorem issueFrame : Obligations.IssueFrame := by
  unfold Obligations.IssueFrame
  refine ⟨fun s u t p h => ?_, fun i s t hi h => ?_⟩
  · obtain ⟨hr, hf⟩ := tryIssue_frame h
    obtain ⟨-, -, hk, hd, hsu, hb⟩ := (by simpa [State.stored] using hf.stored)
    exact ⟨hf.sameMemory, hf.own hr, hk, hd, hsu, hb, hf.others, hf.quietAlone⟩
  · obtain ⟨p, body, -, he⟩ := exec_issuer hi
    rw [he, issue_idle (tryIssue_idle p h)]

end Sys2Proof.Machine
end

section
/-! A store becomes visible (R55, R168, R170): the bytes of a granule after a write to it, and the completion of a pending store of a READY thread. -/

namespace Sys2Proof.Machine

/-! ### The bytes of a granule -/

theorem getD_bytesAt (m : List Host.Cell) (a n i : Nat) (h : i < n) : (bytesAt m a n).getD i 0 = Map.get 0 m (a + i) := by
  induction n generalizing a i with
  | zero => omega
  | succ n ih =>
    cases i with
    | zero => rfl
    | succ i =>
      rw [bytesAt, List.getD_cons_succ, ih (a + 1) i (by omega)]
      congr 1
      omega

/-- Bytes lie lowest first in their value. -/
theorem testBit_leValue (d : List Byte) (i : Nat) : (leValue d).testBit i = (d.getD (i / 8) 0).getLsbD (i % 8) := by
  induction d generalizing i with
  | nil => simp [leValue]
  | cons b r ih =>
    rw [leValue, Nat.add_comm, show (256 : Nat) = 2 ^ 8 from rfl, Nat.testBit_two_pow_mul_add _ b.isLt]
    split
    · next h => simp [show i / 8 = 0 by omega, Nat.mod_eq_of_lt h, BitVec.getLsbD]
    · next h =>
      rw [ih, show i / 8 = (i - 8) / 8 + 1 by omega, List.getD_cons_succ, show (i - 8) % 8 = i % 8 by omega]

theorem getLsbD_withField (v : Quad) (lo w x i : Nat) (hi : i < 128) :
    (withField v lo w x).getLsbD i = if lo ≤ i ∧ i < lo + w then x.testBit (i - lo) else v.getLsbD i := by
  have hbits : (withField v lo w x).getLsbD i =
      (v.getLsbD i && !((2 ^ w - 1) <<< lo).testBit i || ((x % 2 ^ w) <<< lo).testBit i) := by
    simp only [withField, BitVec.getLsbD_or, BitVec.getLsbD_and, BitVec.getLsbD_not, BitVec.getLsbD_ofNat, hi, decide_true, Bool.true_and]
  rw [hbits, Nat.testBit_shiftLeft, Nat.testBit_shiftLeft, Nat.testBit_two_pow_sub_one, Nat.testBit_mod_two_pow]
  by_cases hlo : lo ≤ i
  · by_cases hw : i < lo + w
    · simp [hlo, hw, show i - lo < w by omega]
    · simp [hlo, hw, show ¬ i - lo < w by omega]
  · simp [hlo]

/-- Byte i of a granule. -/
def granuleByte (x : Granule) (i : Nat) : Byte := x.data.extractLsb' (8 * i) 8

/-- Memory's bytes are the bytes of its granules. -/
theorem byteAt_eq (s : State) (a : Nat) : s.byteAt a = granuleByte (s.granuleAt (a / 16)) (a % 16) := by
  refine BitVec.eq_of_getLsbD_eq fun j hj => ?_
  have hb : 8 * (a % 16) + j < 128 := by omega
  simp only [granuleByte, State.granuleAt, BitVec.getLsbD_extractLsb', BitVec.getLsbD_ofNat, hb, hj, decide_true, Bool.true_and, testBit_leValue]
  rw [show (8 * (a % 16) + j) / 8 = a % 16 by omega, getD_bytesAt _ _ _ _ (Nat.mod_lt _ (by decide)), Nat.div_add_mod, show (8 * (a % 16) + j) % 8 = j by omega,
    State.byteAt]

/-- A data store changes the bytes that it stores (R55). -/
theorem granApply_bytes_byte (x : Granule) (a : Nat) (d : List Byte) (i : Nat) (hi : i < 16) :
    granuleByte (granApply x (.bytes a d)) i = if a % 16 ≤ i ∧ i < a % 16 + d.length then d.getD (i - a % 16) 0 else granuleByte x i := by
  refine BitVec.eq_of_getLsbD_eq fun j hj => ?_
  have hin : (8 * (a % 16) ≤ 8 * i + j ∧ 8 * i + j < 8 * (a % 16) + 8 * d.length) ↔ (a % 16 ≤ i ∧ i < a % 16 + d.length) := by omega
  simp only [granuleByte, granApply, BitVec.getLsbD_extractLsb', hj, decide_true, Bool.true_and,
    getLsbD_withField _ _ _ _ _ (show 8 * i + j < 128 by omega), hin]
  split
  · rw [testBit_leValue, show (8 * i + j - 8 * (a % 16)) / 8 = i - a % 16 by omega, show (8 * i + j - 8 * (a % 16)) % 8 = j by omega]
  · simp [hj]

/-- The bytes of memory after a data store inside one granule. -/
theorem applyWrite_bytes_byteAt (s : State) (a : Nat) (d : List Byte) (h : a % 16 + d.length ≤ 16) (x : Nat) :
    (s.applyWrite (.bytes a d)).byteAt x = if a ≤ x ∧ x < a + d.length then d.getD (x - a) 0 else s.byteAt x := by
  rw [byteAt_eq, byteAt_eq, applyWrite_granuleAt, show (GWrite.bytes a d).granule = a / 16 from rfl]
  by_cases hg : x / 16 = a / 16
  · have hin : (a % 16 ≤ x % 16 ∧ x % 16 < a % 16 + d.length) ↔ (a ≤ x ∧ x < a + d.length) := by omega
    rw [if_pos hg, granApply_bytes_byte _ _ _ _ (Nat.mod_lt _ (by decide))]
    simp only [hin]
    split
    · rw [show x % 16 - a % 16 = x - a by omega]
    · rfl
  · rw [if_neg hg, if_neg (by omega)]

/-! ### Completing a store -/

theorem granuleAt_of_sameMemory {s u : State} (h : SameMemory s u) (g : Nat) : u.granuleAt g = s.granuleAt g := by
  unfold State.granuleAt
  rw [h.1, h.2]

theorem byteAt_of_sameMemory {s u : State} (h : SameMemory s u) (a : Nat) : u.byteAt a = s.byteAt a := by
  unfold State.byteAt
  rw [h.1]

/-- A READY thread waits for nothing. -/
theorem settle_ready {s : State} {t : Tid} (h : (s.thr t).st = .ready) : s.settle t = s := by
  simp [State.settle, h]

/-- A store of one granule: the plates that it meets abort, then memory takes it. -/
theorem completeStore_one (s : State) (t : Tid) (w : GWrite) : ∃ u, CheckFrame t s u ∧ SameMemory (u.applyWrite w) (s.completeStore t [w]) ∧
    (s.completeStore t [w]).threads = u.threads :=
  ⟨s.conflict (some t) (lineOf w.granule) true, conflict_frame .., ⟨rfl, rfl⟩, rfl⟩

/-- The oldest pending store of a READY thread, which nothing holds back, of one granule. -/
theorem execStoreComplete_one {t : Tid} {s : State} {p : PStore} {r : List PStore} {w : GWrite} (hst : (s.thr t).st = .ready)
    (hs : (s.thr t).stores = p :: r) (hm : storeMayComplete s t 0 p = true) (hw : p.writes = [w]) :
    ∃ u v, execStoreComplete t 0 s = .next u ∧ (u.thr t).stores = r ∧ SameMemory s v ∧ SameMemory (v.applyWrite w) u := by
  obtain ⟨v, hv, hmem, hthr⟩ := completeStore_one s t w
  have hown : SameArch (s.thr t) ((s.completeStore t [w]).thr t) := by
    unfold State.thr
    rw [hthr]
    exact hv.own hst
  have hready : (((s.completeStore t [w]).modThr t (fun th => { th with stores := th.stores.eraseIdx 0 })).thr t).st = .ready := by
    simp [hown.st_eq, hst]
  refine ⟨(s.completeStore t [w]).modThr t (fun th => { th with stores := th.stores.eraseIdx 0 }), v, ?_, ?_, hv.sameMemory, hmem⟩
  · simp only [execStoreComplete, hs, List.getElem?_cons_zero, hm, hw, Bool.not_true, Bool.false_eq_true, if_false, settle_ready hready]
  · simp [hown.stores_eq, hs]

/-- Settles O22: the store's granule is written with what the plates that it meets leave in memory, which is what was there. -/
theorem storeVisibility : Obligations.StoreVisibility := by
  unfold Obligations.StoreVisibility
  intro t s p r hst hs
  have hexec : exec (.storeComplete t 0) s = execStoreComplete t 0 s := rfl
  refine ⟨fun hm => ?_, fun hm => ⟨fun a d hw hin => ?_, fun g c hw => ?_, fun g c hw => ?_⟩⟩
  · simp [hexec, execStoreComplete, hs, hm]
  all_goals obtain ⟨u, v, hu, hr, hv, hm'⟩ := execStoreComplete_one hst hs hm hw
  · refine ⟨u, hu, hr, fun x => ?_, fun g => ?_⟩
    · rw [byteAt_of_sameMemory hm', applyWrite_bytes_byteAt v a d hin, byteAt_of_sameMemory hv]
    · rw [granuleAt_of_sameMemory hm', applyWrite_granuleAt, granuleAt_of_sameMemory hv]
      by_cases hg : g = a / 16 <;> simp [hg, GWrite.granule, granApply]
  all_goals
    refine ⟨u, hu, fun k => ?_⟩
    rw [granuleAt_of_sameMemory hm', applyWrite_granuleAt, granuleAt_of_sameMemory hv]
    by_cases hg : k = g <;> simp [hg, GWrite.granule, granApply]

end Sys2Proof.Machine
end

section
/-! Host requests, doorbells and register writes (R10 to R12, R427 to R433, R451): a write of a register that reaches it is that register's own write, and an
access of HOST is answered as the bus answers it. -/

namespace Sys2Proof.Machine

/-! ### Registers -/

/-- A write of one register leaves those at other addresses. -/
theorem rset_rget_apart (s : State) (r : RName) (v : Word) (q : RName) (h : q.addr ≠ r.addr) : (s.rset r v).rget q = s.rget q := by
  rw [State.rset_rget s r v q (fun e => absurd e h), if_neg h]

theorem raiseMsix_rget (s : State) (v : Nat) (q : RName) : (s.raiseMsix v).rget q = s.rget q := by
  unfold State.raiseMsix
  split <;> rfl

theorem raiseMsix_sameMemory (s : State) (v : Nat) : SameMemory s (s.raiseMsix v) := by
  unfold State.raiseMsix
  split <;> exact ⟨rfl, rfl⟩

theorem raiseMsix_threads (s : State) (v : Nat) : (s.raiseMsix v).threads = s.threads := by
  unfold State.raiseMsix
  split <;> rfl

theorem mem_insertNat (k : Nat) (l : List Nat) : k ∈ insertNat k l := by
  induction l with
  | nil => simp [insertNat]
  | cons i r ih =>
    unfold insertNat
    split
    · simp
    · split
      · next h => simp [h]
      · simp [ih]

theorem raiseVecReg_rget (s : State) (r q : RName) : (s.raiseVecReg r).rget q = s.rget q := by
  unfold State.raiseVecReg State.raiseVector State.wakeGated
  dsimp only
  split
  · split
    · split <;> rfl
    · rfl
  · rfl

theorem raiseVecReg_sameMemory (s : State) (r : RName) : SameMemory s (s.raiseVecReg r) := by
  unfold State.raiseVecReg State.raiseVector State.wakeGated
  dsimp only
  split
  · split
    · split <;> exact ⟨rfl, rfl⟩
    · exact ⟨rfl, rfl⟩
  · exact ⟨rfl, rfl⟩

/-! ### A write that reaches its register -/

theorem regAt_eq_some {a : Nat} {r : RName} (h : regAt a = some r) : mmioBase ≤ a ∧ a < mmioBase + 0x4000000 ∧ a % 8 = 0 := by
  by_cases hlow : a < mmioBase ∨ a % 8 ≠ 0
  · rw [regAt, if_pos hlow] at h
    cases h
  · by_cases hhigh : a < mmioBase + 0x4000000
    · exact ⟨by omega, hhigh, by omega⟩
    · have hnone : regAt a = none := by
        rw [regAt, if_neg hlow]
        dsimp only
        repeat rw [if_neg (by omega)]
      rw [hnone] at h
      cases h

/-- An aligned access of eight bytes lies in one granule. -/
theorem segments_eight {a : Nat} (h : a % 8 = 0) : segments a 8 = [(a, 8)] := by
  have hm : min 8 (16 - a % 16) = 8 := by omega
  have h2 : segments a 8 = segsOf a (1 + 1) 8 := rfl
  rw [h2, segsOf, if_neg (by decide), hm]
  rfl

theorem chunk_one (a : Nat) (d : List Byte) : chunk [(a, d.length)] d = [(a, d)] := by
  rw [chunk, List.take_length, chunk]

/-- A gate and a unit that let an access pass. -/
theorem verdict_pass {s : State} {m : Master} {a : Nat} {rd wr : Bool} (hg : s.gateAccess m a rd wr none = (s, .allow)) (hr : s.refusal m a wr = none) :
    s.verdict m a rd wr none = (s, .pass) := by
  unfold State.verdict
  simp [hr, hg]

/-- A register's write through the bus: its gate and its unit let it pass, and it is posted. -/
theorem busWrite_register {s : State} {m : Master} {r : RName} {d : List Byte} (h : s.reachesReg m r) (hd : d.length = 8) :
    s.busWrite m r.addr d = ({ s with posted := [(m, r.addr, d)] }, .ok) := by
  obtain ⟨-, hreg, htgt, hgate, href, hdur, hheld, hpost⟩ := h
  obtain ⟨hbase, -, h8⟩ := regAt_eq_some hreg
  have hhigh : ¬ r.addr < 0x10000000000 := by unfold mmioBase at hbase; omega
  have hgates : s.busGates m r.addr false true = (s, true) := by simp [State.busGates, hhigh, verdict_pass hgate href]
  have hwidth : legalWidth r.addr d.length = true := by simp [legalWidth, hd, h8]
  have hseg : s.busWriteSeg m true r.addr d = ({ s with posted := [(m, r.addr, d)] }, true) := by
    simp [State.busWriteSeg, hgates, htgt, State.postWrite, hpost]
  have hsegs : chunk (segments r.addr d.length) d = [(r.addr, d)] := by rw [hd, segments_eight h8, ← hd, chunk_one]
  simp [State.busWrite, hsegs, hdur, hheld, hwidth, busWriteSegs, hseg]

/-- A write of eight bytes that reaches a register is the register's own write. -/
theorem masterWrite_register {s : State} {m : Master} {r : RName} (h : s.reachesReg m r) (v : Word) :
    s.masterWrite m r.addr (leBytes 8 v.toNat) = (s.regWrite m r v, true) := by
  have hbus := busWrite_register (d := leBytes 8 v.toNat) h (leBytes_length _ _)
  obtain ⟨-, hreg, htgt, -, -, -, -, hpost⟩ := h
  obtain ⟨-, -, h8⟩ := regAt_eq_some hreg
  have hs : ({ s with posted := [] } : State) = s := by rw [← hpost]
  have hv : BitVec.ofNat 64 (leValue (leBytes 8 v.toNat)) = v := by rw [leValue_leBytes, ofNat_mod_word]
  have hdev : s.devWrite m r.addr (leBytes 8 v.toNat) = s.regWrite m r v := by
    have ha : r.addr / 8 * 8 = r.addr := by omega
    simp [State.devWrite, htgt, legalWidth, h8, ha, hreg, hv]
  have hperform : State.performPosted { s with posted := [(m, r.addr, leBytes 8 v.toNat)] } = s.regWrite m r v := by
    rw [← hdev]
    exact congrArg (fun u : State => u.devWrite m r.addr (leBytes 8 v.toNat)) hs
  simp only [State.masterWrite, hbus, hperform, decide_true]

theorem writeCommand_register {s : State} {m : Master} {r : RName} (h : s.reachesReg m r) (v : Word) :
    writeCommand m r v s = .next (s.regWrite m r v).after := by
  have hp : s.powered = true := h.1
  simp [writeCommand, onPowered, hp, State.writeReg, masterWrite_register h]

theorem registerWrite_register {s : State} {m : Master} {r : RName} (h : s.reachesReg m r) (v : Word) :
    exec (.registerWrite m r.addr 8 v) s = .next (s.regWrite m r v).after := by
  have hp : s.powered = true := h.1
  obtain ⟨hlo, hhi, -⟩ := regAt_eq_some h.2.1
  have he : exec (.registerWrite m r.addr 8 v) s = execRegisterWrite m r.addr 8 v s := rfl
  simp [he, execRegisterWrite, onPowered, hp, hlo, hhi, masterWrite_register h]

/-- A register written by the field rule alone. -/
theorem registerWrite_plain {s : State} {m : Master} {q : RName} (h : s.reachesReg m q) {v : Word} (hq : s.regWrite m q v = s.plainWrite q v) :
    ∃ w : State, exec (.registerWrite m q.addr 8 v) s = .next w.after ∧ w.rget q = fieldWrite (s.rget q) v (q.fields s.i20) ∧
      (∀ z : RName, z.addr ≠ q.addr → w.rget z = s.rget z) ∧ SameMemory s w ∧ w.threads = s.threads := by
  refine ⟨s.plainWrite q v, ?_, State.rset_rget_self .., fun z hz => rset_rget_apart s q _ z hz, ⟨rfl, rfl⟩, rfl⟩
  rw [registerWrite_register h, hq]

/-! ### Doorbells and HOST_IRQ (R427, R428) -/

/-- A ring of MB_H2U_DB outside WAIT_HOST. -/
theorem ringH2u_rings (s : State) (h : s.rfield .bootStat 0 4 ≠ 4) : s.ringH2u.rget .mbH2uDb = 1 ∧ SameMemory s s.ringH2u := by
  have hring : ∀ u : State, (∀ q, u.rget q = (s.rset .mbH2uDb 1).rget q) → SameMemory s u →
      (if u.rfield .bootStat 0 4 = 4 then u.hostImage else u).rget .mbH2uDb = 1 ∧
        SameMemory s (if u.rfield .bootStat 0 4 = 4 then u.hostImage else u) := fun u hu hm => by
    have hb : u.rfield .bootStat 0 4 ≠ 4 := by
      rw [State.rfield, hu, rset_rget_apart _ _ _ _ (by decide)]
      exact h
    rw [if_neg hb, hu, State.rset_rget_self]
    exact ⟨rfl, hm⟩
  unfold State.ringH2u
  dsimp only
  split
  · exact hring _ (fun _ => rfl) ⟨rfl, rfl⟩
  · exact hring _ (raiseVecReg_rget _ _) (raiseVecReg_sameMemory (s.rset .mbH2uDb 1) _)

theorem ringU2h_rings (s : State) : s.ringU2h.rget .mbU2hDb = 1 ∧ SameMemory s s.ringU2h ∧ s.ringU2h.threads = s.threads := by
  unfold State.ringU2h
  dsimp only
  split
  · exact ⟨State.rset_rget_self .., ⟨rfl, rfl⟩, rfl⟩
  · exact ⟨(raiseMsix_rget ..).trans (State.rset_rget_self ..), raiseMsix_sameMemory (s.rset .mbU2hDb 1) 1, raiseMsix_threads ..⟩

/-- An MSI-X vector is pending while it is held, and sent otherwise (R433). -/
theorem raiseMsix_sends (s : State) (v : Nat) :
    if s.msixHeld v then v ∈ (s.raiseMsix v).msix.pending ∧ (s.raiseMsix v).out = s.out else (s.raiseMsix v).out = s.out ++ [.msix v] := by
  unfold State.raiseMsix
  split
  · exact ⟨mem_insertNat .., rfl⟩
  · rfl

theorem writeHostIrq_eq (s : State) (x : Word) : s.writeHostIrq x = if 8 ≤ x.toNat % 2048 then s.raiseMsix (x.toNat % 2048) else s := by
  have hn : bitsOf x 0 11 = x.toNat % 2048 := by simp [bitsOf]
  unfold State.writeHostIrq
  rw [hn]

/-! ### The endpoint (R451) -/

theorem Map.find_filter_out {α : Type} (p : Nat → Bool) (m : List (Nat × α)) (k : Nat) (h : p k = false) :
    Map.find (m.filter (fun x => p x.1)) k = none := by
  induction m with
  | nil => rfl
  | cons x r ih =>
    rw [List.filter_cons]
    split
    · next hx =>
      rw [Map.find_cons, if_neg, ih]
      rintro rfl
      rw [h] at hx
      cases hx
    · exact ih

theorem epReset_msixTable (s : State) (k : Nat) (h : k < 4096) : s.epReset.rget (.msixTable k) = 0 := by
  have ha : (RName.msixTable k).addr = mmioBase + 0x8000 + 8 * k := rfl
  have hk : (!(decide (mmioBase + 0x8000 ≤ (RName.msixTable k).addr) && decide ((RName.msixTable k).addr < mmioBase + 0x10000))) = false := by
    rw [ha]
    simp only [Bool.not_eq_false', Bool.and_eq_true, decide_eq_true_eq]
    omega
  have hf := Map.find_filter_out (fun a => !(decide (mmioBase + 0x8000 ≤ a) && decide (a < mmioBase + 0x10000))) s.regs _ hk
  have hr : s.epReset.regs = s.regs.filter (fun p => !(decide (mmioBase + 0x8000 ≤ p.1) && decide (p.1 < mmioBase + 0x10000))) := rfl
  rw [State.rget, hr, Map.get, hf]
  rfl

/-! ### Accesses of HOST (R366, R431, R432) -/

/-- A host access that no waiting write holds back, as the bus answers it. -/
theorem busRequest_host (s : State) (a n : Nat) (d : Option (List Byte)) (h : s.busWaits.any (fun w => w.host && w.data.isSome) = false) :
    s.busRequest { host := true, addr := a, len := n, data := d } =
      (s.tryBus { host := true, addr := a, len := n, data := d }).getD
        { s with busWaits := s.busWaits ++ [{ host := true, addr := a, len := n, data := d }] } := by
  simp only [State.busRequest, h, Bool.and_false, Bool.false_eq_true, if_false, if_true]
  cases s.tryBus { host := true, addr := a, len := n, data := d } <;> rfl

/-- A host access behind a write that waits. -/
theorem busRequest_behind (s : State) (a n : Nat) (d : Option (List Byte)) (h : s.busWaits.any (fun w => w.host && w.data.isSome) = true) :
    s.busRequest { host := true, addr := a, len := n, data := d } =
      { s with busWaits := s.busWaits ++ [{ host := true, addr := a, len := n, data := d }] } := by
  simp [State.busRequest, h]

/-- A host read that reaches the bus. -/
theorem execHostRead_bus {s : State} {bar2 : Bool} (off n : Nat) (hp : s.powered = true) (hl : s.boot.epLinkUp = true)
    (hb : bar2 = false ∨ s.boot.step4 = true) :
    exec (.hostRead bar2 off n) s =
      .next ((s.active 95 1 0).busRequest { host := true, addr := s.barAddr bar2 off, len := n, data := none }) := by
  have he : exec (.hostRead bar2 off n) s = execHostRead bar2 off n s := rfl
  have hb' : (bar2 && !(s.active 95 1 0).boot.step4) = false := by
    rcases hb with rfl | h4
    · rfl
    · simp [State.active, h4]
  have ha : (s.active 95 1 0).barAddr bar2 off = s.barAddr bar2 off := rfl
  simp [he, execHostRead, onPowered, hp, State.hostRead, hl, hb', ha]

/-- A host write that reaches the bus. -/
theorem execHostWrite_bus {s : State} {bar2 : Bool} (off : Nat) (d : List Byte) (hp : s.powered = true) (hl : s.boot.epLinkUp = true)
    (hb : bar2 = false ∨ s.boot.step4 = true ∧ s.boot.hostLocked = false) :
    exec (.hostWrite bar2 off d) s =
      .next ((s.active 95 1 (blocks64 d.length)).busRequest
        { host := true, addr := s.barAddr bar2 off, len := d.length, data := some d }).after := by
  have he : exec (.hostWrite bar2 off d) s = execHostWrite bar2 off d s := rfl
  have hb' : (bar2 && !(s.active 95 1 (blocks64 d.length)).boot.step4) = false ∧ (bar2 && (s.active 95 1 (blocks64 d.length)).boot.hostLocked) = false := by
    rcases hb with rfl | ⟨h4, hh⟩
    · exact ⟨rfl, rfl⟩
    · simp [State.active, h4, hh]
  have ha : (s.active 95 1 (blocks64 d.length)).barAddr bar2 off = s.barAddr bar2 off := rfl
  simp [he, execHostWrite, onPowered, hp, State.hostWrite, hl, hb', ha]

/-- Without its link an access of HOST is not taken. -/
theorem host_unlinked {s : State} (bar2 : Bool) (off n : Nat) (d : List Byte) (hp : s.powered = true) (hl : s.boot.epLinkUp = false) :
    exec (.hostRead bar2 off n) s = .next s ∧ exec (.hostWrite bar2 off d) s = .next s.after := by
  have hr : exec (.hostRead bar2 off n) s = execHostRead bar2 off n s := rfl
  have hw : exec (.hostWrite bar2 off d) s = execHostWrite bar2 off d s := rfl
  simp [hr, hw, execHostRead, execHostWrite, onPowered, hp, State.hostRead, State.hostWrite, hl]

/-- Through BAR2 before DRAM is usable. -/
theorem host_beforeDram {s : State} (off n : Nat) (d : List Byte) (hp : s.powered = true) (hl : s.boot.epLinkUp = true) (h4 : s.boot.step4 = false) :
    exec (.hostRead true off n) s = .next { s.active 95 1 0 with out := (s.active 95 1 0).out ++ [.hostCompletion none] } ∧
      exec (.hostWrite true off d) s = .next (s.active 95 1 (blocks64 d.length)).after := by
  have hr : exec (.hostRead true off n) s = execHostRead true off n s := rfl
  have hw : exec (.hostWrite true off d) s = execHostWrite true off d s := rfl
  have h4' : ∀ k, (s.active 95 1 k).boot.step4 = false := fun _ => h4
  simp [hr, hw, execHostRead, execHostWrite, onPowered, hp, State.hostRead, State.hostWrite, hl, h4']

/-- A write through BAR2 while a host image is taken. -/
theorem hostWrite_locked {s : State} (off : Nat) (d : List Byte) (hp : s.powered = true) (hl : s.boot.epLinkUp = true) (h4 : s.boot.step4 = true)
    (hh : s.boot.hostLocked = true) :
    exec (.hostWrite true off d) s = .next ({ s.active 95 1 (blocks64 d.length) with
      out := (s.active 95 1 (blocks64 d.length)).out ++ [.completerAbort] } : State).after := by
  have hw : exec (.hostWrite true off d) s = execHostWrite true off d s := rfl
  have h4' : (s.active 95 1 (blocks64 d.length)).boot.step4 = true := h4
  have hh' : (s.active 95 1 (blocks64 d.length)).boot.hostLocked = true := hh
  simp [hw, execHostWrite, onPowered, hp, State.hostWrite, hl, h4', hh']

/-! How the bus answers a host access. -/

theorem tryBus_read_ok {s u : State} {a n : Nat} {y : List Byte} (h : s.busRead .host a n = (u, .ok, y)) :
    s.tryBus { host := true, addr := a, len := n, data := none } = some { u with out := u.out ++ [.hostCompletion (some y)] } := by
  simp [State.tryBus, BusWait.master, h, State.answerRead]

theorem tryBus_read_error {s u : State} {a n : Nat} {y : List Byte} (h : s.busRead .host a n = (u, .error, y)) :
    s.tryBus { host := true, addr := a, len := n, data := none } = some { u with out := u.out ++ [.hostCompletion none] } := by
  simp [State.tryBus, BusWait.master, h, State.answerRead]

theorem tryBus_read_wait {s u : State} {a n : Nat} {y : List Byte} (h : s.busRead .host a n = (u, .wait, y)) :
    s.tryBus { host := true, addr := a, len := n, data := none } = none := by
  simp [State.tryBus, BusWait.master, h]

theorem tryBus_write_ok {s u : State} {a n : Nat} {d : List Byte} (h : s.busWrite .host a d = (u, .ok)) :
    s.tryBus { host := true, addr := a, len := n, data := some d } = some u.performPosted := by
  simp [State.tryBus, BusWait.master, h, State.answerWrite]

theorem tryBus_write_error {s u : State} {a n : Nat} {d : List Byte} (h : s.busWrite .host a d = (u, .error)) :
    s.tryBus { host := true, addr := a, len := n, data := some d } =
      some { u.performPosted with out := u.performPosted.out ++ [.completerAbort] } := by
  simp [State.tryBus, BusWait.master, h, State.answerWrite]

/-- A register outside the register blocks is not written. -/
theorem registerWrite_outside {s : State} (m : Master) (a n : Nat) (x : Word) (hp : s.powered = true) (h : a < mmioBase ∨ mmioBase + 0x4000000 ≤ a) :
    exec (.registerWrite m a n x) s = .next s := by
  have he : exec (.registerWrite m a n x) s = execRegisterWrite m a n x s := rfl
  have hn : (decide (mmioBase ≤ a) && decide (a < mmioBase + 0x4000000)) = false := by
    rw [Bool.and_eq_false_iff, decide_eq_false_iff_not, decide_eq_false_iff_not]
    omega
  simp only [he, execRegisterWrite, onPowered, hp, hn, if_true, Bool.false_eq_true, if_false]

theorem registerWrite_inside {s : State} (m : Master) (a n : Nat) (x : Word) (hp : s.powered = true) (hlo : mmioBase ≤ a) (hhi : a < mmioBase + 0x4000000) :
    exec (.registerWrite m a n x) s = .next ((s.masterWrite m a (leBytes n x.toNat)).1).after := by
  have he : exec (.registerWrite m a n x) s = execRegisterWrite m a n x s := rfl
  simp only [he, execRegisterWrite, onPowered, hp, hlo, hhi, decide_true, Bool.and_self, if_true]

/-- Settles O60: each command is the write of a register that it reaches, or an access of HOST that the bus answers. -/
theorem hostAndRegisters : Obligations.HostAndRegisters := by
  unfold Obligations.HostAndRegisters
  intro m r x bar2 off n a d y s s₁
  dsimp only
  refine ⟨fun h => ⟨writeCommand_register h 1, ringH2u_rings s⟩, fun h hm => ?unitRing, fun h => ?hostClear, fun h h8 => ?irq, fun h h8 => ?irqLow,
    host_unlinked bar2 off n d, host_beforeDram off n d, hostWrite_locked off d, fun hp hl hb hw => ?read, fun hp hl hb hw => ?readBehind,
    fun hp hl hb hw => ?write, ⟨s.epReset, rfl, rfl, rfl, epReset_msixTable s, rfl, rfl⟩, registerWrite_inside m a n x, registerWrite_outside m a n x,
    fun h => registerWrite_register h x, fun q hq h => ?named, fun q hq h hlock => ?locked⟩
  case unitRing =>
    refine ⟨s.ringU2h, ?_, ringU2h_rings s⟩
    exact (writeCommand_register h 1).trans (by simp [State.regWrite, hm])
  case hostClear =>
    refine ⟨s.rset .mbU2hDb 0, ?_, State.rset_rget_self .., ⟨rfl, rfl⟩, rfl⟩
    exact (writeCommand_register h 1).trans (by simp [State.regWrite])
  case irq =>
    refine ⟨s.raiseMsix (x.toNat % 2048), (writeCommand_register h x).trans ?_, raiseMsix_sends ..⟩
    simp only [State.regWrite, writeHostIrq_eq, h8, if_true]
  case irqLow =>
    refine (writeCommand_register h x).trans ?_
    simp only [State.regWrite, writeHostIrq_eq, Nat.not_le.mpr h8, if_false]
  case read =>
    rw [execHostRead_bus off n hp hl hb, busRequest_host (s.active 95 1 0) _ _ _ hw]
    refine ⟨fun h => ?_, fun h => ?_, fun h => ?_⟩
    · rw [tryBus_read_ok h, Option.getD_some]
    · rw [tryBus_read_error h, Option.getD_some]
    · rw [tryBus_read_wait h, Option.getD_none]
  case readBehind => rw [execHostRead_bus off n hp hl hb, busRequest_behind (s.active 95 1 0) _ _ _ hw]
  case write =>
    rw [execHostWrite_bus off d hp hl hb, busRequest_host (s.active 95 1 (blocks64 d.length)) _ _ _ hw]
    refine ⟨fun h => ?_, fun h => ?_⟩
    · rw [tryBus_write_ok h, Option.getD_some]
    · rw [tryBus_write_error h, Option.getD_some]
  case named =>
    refine registerWrite_plain h ?_
    simp only [List.mem_cons, List.not_mem_nil, or_false] at hq
    rcases hq with rfl | rfl | rfl | rfl | rfl | rfl | rfl | rfl | rfl | rfl | rfl | rfl | rfl | rfl | rfl | rfl | rfl | rfl | rfl | rfl |
      rfl | rfl | rfl <;> rfl
  case locked =>
    rw [registerWrite_register h]
    simp only [List.mem_cons, List.not_mem_nil, or_false] at hq
    rcases hq with rfl | rfl | rfl | rfl | rfl | rfl | rfl <;> simp [State.regWrite, RName.isEtchLk, hlock]

end Sys2Proof.Machine
end
